-- ==== Sys2Proof/Word.lean ====
section
/-!
DEFINITION. The word types and the index types of the manual's Conventions (00_scope.md, "Numbering").
-/
namespace Sys2Proof

/-- One byte of a frame, a cell or a record. -/
abbrev Byte := BitVec 8
/-- Tags, peer ids and digests. -/
abbrev Word16 := BitVec 16
/-- Counters, stream offsets and key offsets: 32 bits, wrapping (R1). -/
abbrev Word32 := BitVec 32
/-- An Ethernet MAC address, first byte on the wire most significant. -/
abbrev Mac := BitVec 48

/-- Ports 0 to 47. -/
abbrev PortNo := Fin 48
/-- Sessions 0 to 63. -/
abbrev SessionNo := Fin 64
/-- Taps 0 to 3. -/
abbrev TapNo := Fin 4
/-- Delivery queues 0 to 67. -/
abbrev QueueNo := Fin 68
/-- Peer Table indexes 0 to 31. -/
abbrev PeerNo := Fin 32
/-- Triggers 0 to 15. -/
abbrev TriggerNo := Fin 16
/-- Reply Queue slots 0 to 31. -/
abbrev SlotNo := Fin 32

end Sys2Proof
end

