-- ==== Sys2Proof/Config.lean ====
section
/-!
DEFINITION. What one DCL-48 fixes: the sizes of its stores, and the one value the manual leaves open.
-/
namespace Sys2Proof.Config

/-- The frame check sequence of a frame, from all bytes before it. FREE VALUE: "this manual does not give that
calculation" (R2), so nothing constrains it (log 5). -/
opaque fcs : List Byte → BitVec 32

/-- Places of the Receive FIFO (R3). -/
def rxFifoPlaces : Nat := 16
/-- Places of the Notice Queue (R181). -/
def noticePlaces : Nat := 32
/-- Bytes of a Transmit FIFO (R20). -/
def txFifoSize : Nat := 512
/-- Bytes of one cell (R61). -/
def cellSize : Nat := 64
/-- Cells of the Cell Store (R61). -/
def cellCount : Nat := 4096
/-- Cells of the tap key reserve (R65). -/
def tapReserve : Nat := 64
/-- Entries of each delivery queue's own reserve (R75). -/
def queueReserve : Nat := 4
/-- Shared entries of the Reference Store (R75). -/
def sharedRefs : Nat := 752
/-- Sessions one peer may hold (R119). -/
def sessionsPerPeer : Nat := 8
/-- The part revision IDENTIFY reports (R13). -/
def partRevision : Nat := 1
/-- Bytes of the start-up image (R190). -/
def imageSize : Nat := 2924

/-- Drain limit, RECONFIG limit, debounce time and SAVE limit in milliseconds (R118, R44, R56, R185). -/
def drainLimit : Nat := 10000
def reconfigLimit : Nat := 2000
def debounceTime : Nat := 20
def saveLimit : Nat := 10000

end Sys2Proof.Config
end

