-- ==== Sys2Proof/Syntax.lean ====
section
/-!
DEFINITION. The commands: one constructor per row of spec/opcode_table.json.

The request rows carry no operand of their own: the row is "the Decoder takes a frame of that kind from the head of the
Receive FIFO" (R4), and every operand of the request is a field of that frame (R187 to R190; log 2).
-/
namespace Sys2Proof

/-- What the serial flash answers when the part reads the image (R184, R185). -/
inductive FlashAnswer where
  /-- It holds what the part last left in it. -/
  | stored
  /-- It answers these bytes. -/
  | bytes (image : List Byte)
  /-- It does not answer. -/
  | silent
  deriving DecidableEq, Repr

/-- The levels the receiver takes of one character (R30, R31): the data bits in a byte, the parity bit, whether the first
stop bit is at mark, and whether RXD is still at space half a bit time after the middle of the stop bit. -/
structure RxSample where
  data : Byte
  parityBit : Bool
  stopMark : Bool
  stillSpace : Bool
  deriving DecidableEq, Repr

/-- The steps of the part. -/
inductive Instr where
  | frameArrival (frame : List Byte) (goodFcs : Bool)
  | unknownKindRequest
  | identify
  | attach
  | detachNow
  | detachFlush
  | keys
  | take
  | yield
  | history
  | digestReset
  | attention
  | signalBreak
  | signalAuxPulse
  | signalDtrPulse
  | stage
  | apply
  | snapshot
  | portControlEnable
  | portControlDisable
  | portControlReset
  | clear
  | resume
  | loadPeer
  | loadProfile
  | loadTrigger
  | loadTap
  | loadSystem
  | readPeer
  | readProfile
  | readTrigger
  | readTap
  | readSystem
  | statusSystem
  | statusPort
  | statusSession
  | save
  | restart
  | saveWriteEnd (readBack : FlashAnswer)
  | saveTimeout
  | powerOn (commissioningStrap : Bool) (addressStraps : BitVec 4) (flash : FlashAnswer)
  | pinReset (commissioningStrap : Bool) (addressStraps : BitVec 4) (flash : FlashAnswer)
  | txCharacterComplete (port : PortNo)
  | rxCharacterComplete (port : PortNo) (sample : RxSample)
  | ctsChange (port : PortNo) (asserted : Bool)
  | dsrChange (port : PortNo) (asserted : Bool)
  | dsrDebounceExpiry (port : PortNo)
  | reconfigTimerExpiry (port : PortNo)
  | idleGapExpiry (port : PortNo)
  | fanoutServe
  | holdTimerExpiry (port : PortNo)
  | sessionIdleTimeout (session : SessionNo)
  | drainTimerExpiry (session : SessionNo)
  | dataFrameBegin
  | dataFrameComplete
  | controlFrameBegin
  | replyComplete
  | noticeComplete
  | shaperTokenRise
  | linkDown
  | linkUp
  | breakSpaceExpiry (port : PortNo)
  | breakMarkExpiry (port : PortNo)
  | pulseExpiry (port : PortNo)
  | rxdReturnToMark (port : PortNo)
  | startBitNoise (port : PortNo)
  deriving DecidableEq, Repr

end Sys2Proof
end

