-- ==== Sys2Proof/Decode.lean ====
section
/-!
DEFINITION. The command a word of the opcode table spells. No row of spec/opcode_table.json gives bits ("fixed" and
"fields" are empty for all 66 rows), so no word spells a command. The frames that carry requests are read in
Machine/Codec.lean and Machine/Operands.lean, from the layouts of R187 to R190.
-/
namespace Sys2Proof

/-- No row of the table gives bits, so every word is answered none. -/
def decodeTableWord (_nbits _w : Nat) : Option Instr := none

end Sys2Proof
end

