-- ==== Sys2Proof/Machine/State.lean ====
section
/-!
DEFINITION. The state of the part: every register, store, queue, counter and pin the manual gives it, as plain data, and its
value after reset. Field docstrings cite the rule that names the state. Nothing here computes; Machine/Ops.lean does.
-/
namespace Sys2Proof.Machine

/-! ### Peers, rights and results -/

/-- Max role of a peer, in rising order (R8). -/
inductive MaxRole where
  | observe | own | take
  deriving DecidableEq, Repr

/-- Signal right of a peer (R8). -/
inductive SignalRight where
  | noSignal | breakOnly | all
  deriving DecidableEq, Repr

/-- One Peer Table entry (R8). -/
structure Peer where
  valid : Bool
  mac : Mac
  peerId : Word16
  mask : BitVec 48
  maxRole : MaxRole
  signalRight : SignalRight
  configure : Bool
  supervisor : Bool
  collector : Bool
  deriving DecidableEq, Repr

/-- The not-valid entry with all other fields zero (R8). -/
def Peer.empty : Peer :=
  { valid := false, mac := 0, peerId := 0, mask := 0, maxRole := .observe, signalRight := .noSignal,
    configure := false, supervisor := false, collector := false }

/-- Where a frame the part sends goes: a MAC address and the peer id in its header. -/
structure Address where
  mac : Mac
  peerId : Word16
  deriving DecidableEq, Repr

/-- The sixteen result codes, in the order of the Conventions (R16, R188). -/
inductive ResultCode where
  | ok | adjusted | flushed | badFormat | badValue | noRight | noSession | notOwner
  | badState | busy | full | localPresence | attentionPending | inUse | noRoom | aborted
  deriving DecidableEq, Repr

/-- An accepted frame as it waits in the Receive FIFO: the fields of the relay header and the body; padding is ignored
(R2, R187). -/
structure RelayFrame where
  source : Mac
  kind : Byte
  peerId : Word16
  tag : Word16
  session : Byte
  body : List Byte
  deriving DecidableEq, Repr

/-- What a reply repeats of its request (R14). -/
structure ReqHeader where
  source : Mac
  kind : Byte
  peerId : Word16
  tag : Word16
  session : Byte
  deriving DecidableEq, Repr

/-- A Reply Queue slot (R14). -/
inductive Slot where
  | free
  | reserved (header : ReqHeader)
  | formed (header : ReqHeader) (code : ResultCode) (data : List Byte)
  deriving DecidableEq, Repr

/-! ### Port profile -/

inductive Parity where
  | noParity | even | odd
  deriving DecidableEq, Repr

inductive FlowMode where
  | noFlow | soft | hard
  deriving DecidableEq, Repr

inductive ErrorPolicy where
  | keep | drop
  deriving DecidableEq, Repr

inductive PresenceSource where
  | noSource | dsr
  deriving DecidableEq, Repr

inductive LineControl where
  | auto | manual
  deriving DecidableEq, Repr

inductive AuxUse where
  | noUse | resetAssist
  deriving DecidableEq, Repr

inductive AuxLevel where
  | high | low
  deriving DecidableEq, Repr

inductive BreakPolicy where
  | pass | refuse
  deriving DecidableEq, Repr

inductive FanoutMode where
  | hold | drop
  deriving DecidableEq, Repr

/-- One Port Profile Table entry with its derived fields (R42). -/
structure Profile where
  enabled : Bool
  rate : Nat
  dataBits : Nat
  parity : Parity
  stopBits : Nat
  flow : FlowMode
  errorPolicy : ErrorPolicy
  presenceSource : PresenceSource
  rtsControl : LineControl
  dtrControl : LineControl
  auxControl : LineControl
  auxUse : AuxUse
  auxLevel : AuxLevel
  auxPulse : Nat
  breakPolicy : BreakPolicy
  reserve : Nat
  shareLimit : Nat
  pauseOn : Nat
  pauseOff : Nat
  historyLimit : Nat
  blockLimit : Nat
  idleGap : Nat
  triggerSet : BitVec 16
  mode : FanoutMode
  holdLimit : Nat
  pressureThreshold : Nat
  pressureCopies : Nat
  noticeMask : BitVec 10
  /-- Derived: the divisor in eighths (R39). -/
  d8 : Nat
  /-- Derived: the achieved rate (R40). -/
  achieved : Nat
  /-- Derived: the rate error in ppm (R40). -/
  rateError : Int
  /-- Derived: the bits of one character (R41). -/
  charBits : Nat
  deriving DecidableEq, Repr

/-- The default entry: the Default column of R42, with the derived fields it states. -/
def Profile.default : Profile :=
  { enabled := false, rate := 9600, dataBits := 8, parity := .noParity, stopBits := 1, flow := .noFlow,
    errorPolicy := .keep, presenceSource := .noSource, rtsControl := .auto, dtrControl := .auto,
    auxControl := .auto, auxUse := .noUse, auxLevel := .high, auxPulse := 500, breakPolicy := .refuse,
    reserve := 8, shareLimit := 56, pauseOn := 56, pauseOff := 40, historyLimit := 32, blockLimit := 256,
    idleGap := 4, triggerSet := 0, mode := .drop, holdLimit := 5, pressureThreshold := 0, pressureCopies := 8,
    noticeMask := 0, d8 := 1536, achieved := 9600, rateError := 0, charBits := 10 }

/-! ### Line Engine -/

inductive FlowChar where
  | xon | xoff
  deriving DecidableEq, Repr

/-- The transmit shift register (R20). -/
inductive ShiftReg where
  | empty
  | key (byte : Byte) (tag : Option SessionNo)
  | flow (char : FlowChar)
  deriving DecidableEq, Repr

inductive Pause where
  | released | asserted
  deriving DecidableEq, Repr

/-- The receiver. RECEIVING is entered and left inside the rows RX_CHARACTER_COMPLETE and START_BIT_NOISE, since the start
of a character has no row (log 9). -/
inductive Receiver where
  | hunting | receiving | waitMark
  deriving DecidableEq, Repr

/-- The Line Engine's state but for its counters and its D8 and character bits, which stand with the port's counters and
profile (R20). -/
structure Engine where
  fifo : List (Byte × Option SessionNo)
  shift : ShiftReg
  pendingFlow : Option FlowChar
  lastFlow : FlowChar
  consoleStopped : Bool
  pause : Pause
  receiver : Receiver
  slot : Option Byte
  deriving DecidableEq, Repr

/-- The After reset column of R20. -/
def Engine.initial : Engine :=
  { fifo := [], shift := .empty, pendingFlow := none, lastFlow := .xon, consoleStopped := false,
    pause := .released, receiver := .waitMark, slot := none }

/-! ### Lines and signals -/

/-- A value of the Line Drive Record (R168). -/
inductive Drive where
  | assert | deassert | release
  deriving DecidableEq, Repr

inductive Line where
  | rts | dtr | aux
  deriving DecidableEq, Repr

/-- The Line Drive Record of one port (R168). -/
structure LineDrive where
  rts : Drive
  dtr : Drive
  aux : Drive
  deriving DecidableEq, Repr

/-- Every line at DEASSERT: the record of a DISABLED port (R169). -/
def LineDrive.allDeassert : LineDrive := { rts := .deassert, dtr := .deassert, aux := .deassert }

/-- The Staging Record's entries of one port (R175). -/
structure Staged where
  rts : Option Drive
  dtr : Option Drive
  aux : Option Drive
  deriving DecidableEq, Repr

def Staged.empty : Staged := { rts := none, dtr := none, aux := none }

inductive SignalKind where
  | breakSignal | auxPulse | dtrPulse
  deriving DecidableEq, Repr

/-- The phase of a signal in progress (R170). MARK carries the length it was given, one character time of the format in
effect at its start, in reference periods (R172). -/
inductive SignalPhase where
  | waiting
  | space
  | mark (periods : Nat)
  | on
  deriving DecidableEq, Repr

/-- A signal in progress (R170). `clamped` says that the requested duration was clamped, which the reply reports (R173). -/
structure Signal where
  kind : SignalKind
  phase : SignalPhase
  duration : Nat
  elapsed : Nat
  session : SessionNo
  slot : SlotNo
  clamped : Bool
  deriving DecidableEq, Repr

/-- One level of each raw input of a port: true is RXD at mark, CTS asserted, DSR asserted (R177). -/
structure PinLevels where
  rxd : Bool
  cts : Bool
  dsr : Bool
  deriving DecidableEq, Repr

/-- RXD at mark, CTS and DSR deasserted: the start of the last snapshot (R177), and of the pins (log 9). -/
def PinLevels.rest : PinLevels := { rxd := true, cts := false, dsr := false }

/-! ### Ports -/

inductive PortState where
  | disabled | active | reconfig | localHold
  deriving DecidableEq, Repr

/-- A profile load awaiting its apply (R44). `flushed` is none while the load waits for an idle transmitter (R50); it is the
count of bytes removed once the RECONFIG limit or presence has flushed the FIFO (R51, R57). -/
structure PendingLoad where
  entry : Profile
  adjusted : Bool
  slot : SlotNo
  flushed : Option Nat
  deriving DecidableEq, Repr

/-- The state of the head of a Block Queue (R97). -/
inductive HeadHold where
  | noHold | held | retry | forfeit
  deriving DecidableEq, Repr

/-- The counters STATUS PORT returns, in its order (R188). -/
structure PortCounters where
  overrun : Word32
  errorsKept : Word32
  errorsDropped : Word32
  breaks : Word32
  historyYields : Word32
  admissionWaits : Word32
  patternMatches : Word32
  droppedCopies : Word32
  holdExpiries : Word32
  deriving DecidableEq, Repr

def PortCounters.zero : PortCounters :=
  { overrun := 0, errorsKept := 0, errorsDropped := 0, breaks := 0, historyYields := 0, admissionWaits := 0,
    patternMatches := 0, droppedCopies := 0, holdExpiries := 0 }

/-- The ten sticky port conditions, in the order of the table of R178. -/
inductive Condition where
  | overrun | framing | parity | rxBreak | pattern | localPresence | holdExpired | historyYield | pause | reconfigFlush
  deriving DecidableEq, Repr

/-- Everything the part keeps for one port. Blocks are named by number (log 12). -/
structure Port where
  /-- The Port Profile Table entry in effect (R42). -/
  profile : Profile
  /-- Live port state (R44). -/
  portState : PortState
  epoch : Byte
  streamOffset : Word32
  keyOffset : Word32
  pendingLoad : Option PendingLoad
  reconfigTimer : Option Nat
  dsrDebounced : Bool
  debounceTimer : Option Nat
  /-- The console's lines as they stand at the pins (R177). -/
  pins : PinLevels
  /-- The Line Engine (R20). -/
  engine : Engine
  counters : PortCounters
  /-- The ingress account of the port (R65). -/
  portUse : Nat
  /-- Block Assembly (R82). The idle-gap timer holds the length it runs for, in reference periods (R87). -/
  openBlock : Option Nat
  gapTimer : Option Nat
  matchPos : Vector Nat 16
  pattern : Option (TriggerNo × Word32)
  /-- Fan-out Unit and history (R97). -/
  blockQueue : List Nat
  headHold : HeadHold
  holdTimer : Option Nat
  chain : List Nat
  /-- Sticky conditions, bit n for the n-th of R178. -/
  conditions : BitVec 10
  /-- Line Signal Unit (R168, R170, R175, R177). -/
  lines : LineDrive
  staging : Staged
  signal : Option Signal
  lastSnap : PinLevels
  deriving DecidableEq, Repr

/-- A port right after reset, DISABLED, with the given profile entry in effect. -/
def Port.initial (profile : Profile) : Port :=
  { profile, portState := .disabled, epoch := 0, streamOffset := 0, keyOffset := 0, pendingLoad := none,
    reconfigTimer := none, dsrDebounced := false, debounceTimer := none, pins := .rest, engine := .initial,
    counters := .zero, portUse := 0, openBlock := none, gapTimer := none, matchPos := Vector.replicate 16 0,
    pattern := none, blockQueue := [], headHold := .noHold, holdTimer := none, chain := [], conditions := 0,
    lines := .allDeassert, staging := .empty, signal := none, lastSnap := .rest }

/-! ### Blocks, references, sessions, taps -/

inductive BlockKind where
  | output | keys
  deriving DecidableEq, Repr

/-- Close reasons in the order of R188. -/
inductive CloseReason where
  | full | limit | gap | trigger | breakFound | portEvent
  deriving DecidableEq, Repr

/-- A block record (R62). `id` is its first cell, which no other existing block holds (log 12). -/
structure Block where
  id : Nat
  kind : BlockKind
  port : PortNo
  epoch : Byte
  start : Word32
  length : Nat
  cells : List Nat
  marks : BitVec 8
  closeReason : Option CloseReason
  sender : Option SessionNo
  refCount : Nat
  deriving DecidableEq, Repr

/-- An entry of the Reference Store standing in a delivery queue (R75). -/
structure Ref where
  block : Nat
  history : Bool
  deriving DecidableEq, Repr

inductive SessionState where
  | free | active | draining
  deriving DecidableEq, Repr

inductive Role where
  | owner | observer
  deriving DecidableEq, Repr

/-- A Session Table entry (R118). `drainSlot` is the reply slot a DETACH FLUSH has reserved (R126). -/
structure Session where
  state : SessionState
  peer : PeerNo
  tag : Word16
  port : PortNo
  role : Role
  weight : Nat
  queueLimit : Nat
  idleTimeout : Nat
  idleTimer : Option Nat
  nextOffset : Word32
  gapBytes : Word32
  keysDigest : Word16
  outputDigest : Word16
  keyBytes : Word32
  attention : Bool
  drainTimer : Option Nat
  drainSlot : Option SlotNo
  deriving DecidableEq, Repr

/-- The FREE column of R118. -/
def Session.free : Session :=
  { state := .free, peer := 0, tag := 0, port := 0, role := .observer, weight := 1, queueLimit := 4,
    idleTimeout := 0, idleTimer := none, nextOffset := 0, gapBytes := 0, keysDigest := 0xFFFF,
    outputDigest := 0xFFFF, keyBytes := 0, attention := false, drainTimer := none, drainSlot := none }

/-- End reasons in the order of R141. -/
inductive EndReason where
  | detached | timeout | portDisabled | portReset | peerRemoved | restart
  deriving DecidableEq, Repr

/-- A Trigger Table entry (R91). `actions` has CLOSE at bit 0, MARK at bit 1, NOTICE at bit 2 (R188). -/
structure Trigger where
  valid : Bool
  length : Nat
  pattern : Vector Byte 12
  actions : BitVec 8
  markGroup : Nat
  deriving DecidableEq, Repr

def Trigger.empty : Trigger :=
  { valid := false, length := 0, pattern := Vector.replicate 12 0, actions := 0, markGroup := 0 }

/-- Direction of a tap (R143). An image record may hold another code, which is kept as it stands on a tap loaded as not
enabled (R143). -/
inductive TapDirection where
  | output | keys | both
  | undefined (code : Byte)
  deriving DecidableEq, Repr

/-- The marked-only field of a tap (R143), with the same provision for an image record. -/
inductive MarkedOnly where
  | no | yes
  | undefined (code : Byte)
  deriving DecidableEq, Repr

/-- The fields of a Tap Table entry (R143). The collector and the filter are plain numbers and the mask a 64-bit set, since
an image record's values are kept as given; no entry with values outside their sets is enabled. -/
structure TapEntry where
  enabled : Bool
  collector : Nat
  direction : TapDirection
  portMask : BitVec 64
  peerFilter : Option Nat
  markedOnly : MarkedOnly
  groupMask : BitVec 8
  weight : Nat
  queueLimit : Nat
  deriving DecidableEq, Repr

/-- The power-on values of R143. -/
def TapEntry.empty : TapEntry :=
  { enabled := false, collector := 0, direction := .output, portMask := 0, peerFilter := none,
    markedOnly := .no, groupMask := 0, weight := 1, queueLimit := 4 }

/-- The four counters of a tap (R144). -/
structure TapCounters where
  copiesQueued : Word32
  copiesDropped : Word32
  outputGap : Word32
  keyGap : Word32
  deriving DecidableEq, Repr

def TapCounters.zero : TapCounters := { copiesQueued := 0, copiesDropped := 0, outputGap := 0, keyGap := 0 }

/-- A tap: its table entry and its counters (R143, R144). -/
structure Tap where
  entry : TapEntry
  counters : TapCounters
  deriving DecidableEq, Repr

def Tap.empty : Tap := { entry := .empty, counters := .zero }

/-- The system settings (R167). -/
structure SystemRecord where
  station : Mac
  rate : Nat
  burst : Nat
  supervisor : Option PeerNo
  deriving DecidableEq, Repr

/-! ### Notices and transmission -/

/-- The reasons a SESSION_EVENT carries, in the order of R182. -/
inductive EventReason where
  | demoted | localPresence | timeout | portDisabled | portReset | peerRemoved
  deriving DecidableEq, Repr

/-- The fields of each kind of notice (R179, R182, R189). -/
inductive NoticeBody where
  | portCondition (port : PortNo) (epoch : Byte) (condition : Condition) (conditions : BitVec 10)
      (pattern : Option (TriggerNo × Word32))
  | sessionEvent (session : SessionNo) (tag : Word16) (port : PortNo) (reason : EventReason)
      (taker : Option SessionNo)
  | attention (target : SessionNo) (requester : SessionNo) (requesterPeer : PeerNo) (requesterPort : PortNo)
      (targetTag : Word16)
  deriving DecidableEq, Repr

/-- A formed notice (R181, R182). `marks` names the session whose attention pending flag this notice stands for, until that
session ends (R136). -/
structure Notice where
  dst : Address
  body : NoticeBody
  lost : Bool
  marks : Option SessionNo
  deriving DecidableEq, Repr

inductive ControlKind where
  | reply | notice
  deriving DecidableEq, Repr

/-- What is in transmission. A notice in transmission stands at the head of the Notice Queue unless a RESTART has emptied the
queue meanwhile (R181). The data frame is the transmit record of R155. -/
inductive TxKind where
  | reply (slot : SlotNo)
  | notice (n : Notice) (queued : Bool)
  | output (block : Nat) (queue : QueueNo) (session : Option SessionNo)
  | tapcopy (block : Nat) (queue : QueueNo)
  deriving DecidableEq, Repr

/-- The one frame in transmission with the bytes it was formed with, or the frame that link loss cut off and the part keeps
(R164, R165). -/
structure Transmission where
  what : TxKind
  frame : List Byte
  cut : Bool
  deriving DecidableEq, Repr

/-! ### The start-up image -/

inductive ImageState where
  | valid | noImage | saving
  deriving DecidableEq, Repr

/-- A SAVE in progress: the image being written, the reserved slot and the ms left of the 10 s limit (R185). -/
structure SaveJob where
  image : List Byte
  slot : SlotNo
  timer : Nat
  deriving DecidableEq, Repr

/-! ### The whole state -/

inductive Link where
  | up | down
  deriving DecidableEq, Repr

/-- The Uplink Port's own state (R2, R3, R162, R164, R165). -/
structure UplinkPort where
  link : Link
  rxFifo : List RelayFrame
  accepted : Word32
  rejected : Word32
  overflow : Word32
  unknownSource : Word32
  repliesSent : Word32
  noticesSent : Word32
  outputFramesSent : Word32
  tapFramesSent : Word32
  framesCut : Word32
  /-- The shaper's bucket level in bytes (R162). -/
  level : Int
  deriving DecidableEq, Repr

/-- Everything behind the Uplink Port. -/
structure Part where
  /-- Reply Queue: the slots, and the formed ones in the order they were formed (R14). -/
  slots : Vector Slot 32
  formed : List SlotNo
  /-- Tables and settings (R8, R91, R143, R167). -/
  peers : Vector Peer 32
  triggers : Vector Trigger 16
  taps : Vector Tap 4
  system : SystemRecord
  /-- Straps as latched, and the commissioning state (R12, R184). -/
  commissioningStrap : Bool
  addressStraps : BitVec 4
  commissioning : Bool
  ports : Vector Port 48
  sessions : Vector Session 64
  /-- Cell Store: bytes by address, 64 × cell + position, in canonical form; free list; block records (R61, R62). -/
  mem : List Host.Cell
  freeList : List Nat
  blocks : List Block
  tapUse : Nat
  /-- Admission Wait List (R70). -/
  waitList : List PortNo
  /-- The model's own: a fall of shared_in_use that no walk of the wait list has answered yet (R71; log 29). -/
  walkDue : Bool
  /-- Delivery queues, oldest entry first (R75). -/
  queues : Vector (List Ref) 68
  lastServed : PortNo
  /-- Delivery Scheduler and arbiter (R155, R164). -/
  curQueue : QueueNo
  framesLeft : Nat
  transmission : Option Transmission
  lastControl : ControlKind
  chosen : Option ControlKind
  /-- Notice Queue (R181). -/
  notices : List Notice
  noticesLost : Bool
  /-- Start-up Image Controller (R183 to R185). -/
  imageState : ImageState
  flash : Option (List Byte)
  save : Option SaveJob
  deriving DecidableEq, Repr

/-- The state of the block: the commands that wait, first in first out, the Uplink Port, and the rest of the part. -/
structure State where
  pending : List Instr
  uplink : UplinkPort
  part : Part
  deriving DecidableEq, Repr

/-- The block has no fault of its own: what goes wrong on the wire or a line is counted, answered or set as a condition
(R2, R16, R178). No meaning raises a fault. -/
inductive Fault where
  deriving DecidableEq, Repr

/-- Reasons to give a command no meaning. -/
inductive Refusal where
  /-- Raised by exec's arm of a command that has no meaning yet; safe. No arm uses it. -/
  | notModelled (mnemonic : String)
  deriving DecidableEq, Repr

/-- The system record of a part without an image: the strap-derived station address 02-4E-4B-00-00-nn and the power-on
values of R167 (R184). -/
def SystemRecord.initial (addressStraps : BitVec 4) : SystemRecord :=
  { station := 0x024E4B000000#48 ||| addressStraps.zeroExtend 48, rate := 1250, burst := 15180, supervisor := none }

/-- The Uplink Port after reset: empty, counters 0, level +burst (R3, R162, R164). -/
def UplinkPort.initial (link : Link) (burst : Nat) : UplinkPort :=
  { link, rxFifo := [], accepted := 0, rejected := 0, overflow := 0, unknownSource := 0, repliesSent := 0,
    noticesSent := 0, outputFramesSent := 0, tapFramesSent := 0, framesCut := 0, level := burst }

/-- The part after reset without an image, with every port stopped (R14, R61, R81, R97, R118, R155, R164, R181, R184). -/
def Part.initial (commissioningStrap : Bool) (addressStraps : BitVec 4) : Part :=
  { slots := Vector.replicate 32 .free, formed := [], peers := Vector.replicate 32 .empty,
    triggers := Vector.replicate 16 .empty, taps := Vector.replicate 4 .empty,
    system := .initial addressStraps, commissioningStrap, addressStraps, commissioning := commissioningStrap,
    ports := Vector.replicate 48 (.initial .default), sessions := Vector.replicate 64 .free, mem := [],
    freeList := List.range Config.cellCount, blocks := [], tapUse := 0, waitList := [], walkDue := false,
    queues := Vector.replicate 68 [], lastServed := 47, curQueue := 67, framesLeft := 0, transmission := none,
    lastControl := .notice, chosen := none, notices := [], noticesLost := false, imageState := .noImage,
    flash := none, save := none }

/-- The part right after power-on with no readable image and all straps low (R60, R184; log 7, 8, 9). -/
def State.reset : State :=
  { pending := [], uplink := .initial .up 15180, part := .initial false 0 }

end Sys2Proof.Machine
end

