-- ==== Sys2Proof/Machine/Memory.lean ====
section
/-!
DEFINITION. The memory of the Cell Store: 262,144 bytes by address, 64 × cell + position (R61, R62), held as a list of
(address, byte) pairs in one canonical form.
-/
namespace Sys2Proof.Machine

/-- What an address that is not listed reads as. DESIGN CHOICE (log 6). -/
def Memory.unlisted : Byte := 0

/-- Addresses strictly rising, and no entry equal to what an unlisted address reads as. -/
abbrev Memory.wf (m : List Host.Cell) : Prop :=
  m.Pairwise (fun a b => a.1 < b.1) ∧ ∀ c ∈ m, c.2 ≠ Memory.unlisted

/-- The byte at an address. -/
def Memory.read (m : List Host.Cell) (a : Nat) : Byte :=
  match m with
  | [] => Memory.unlisted
  | c :: rest => if c.1 = a then c.2 else Memory.read rest a

/-- Write one byte, keeping the canonical form. -/
def Memory.write (m : List Host.Cell) (a : Nat) (v : Byte) : List Host.Cell :=
  match m with
  | [] => if v = Memory.unlisted then [] else [(a, v)]
  | c :: rest =>
    if a < c.1 then (if v = Memory.unlisted then c :: rest else (a, v) :: c :: rest)
    else if a = c.1 then (if v = Memory.unlisted then rest else (a, v) :: rest)
    else c :: Memory.write rest a v

/-- The address of byte `k` of a block with the given cells: cell number floor(k / 64), position k mod 64 (R62). -/
def Memory.addressOf (cells : List Nat) (k : Nat) : Nat :=
  cells.getD (k / Config.cellSize) 0 * Config.cellSize + k % Config.cellSize

/-- The first `length` bytes of a block with the given cells, in order. -/
def Memory.readBlock (m : List Host.Cell) (cells : List Nat) (length : Nat) : List Byte :=
  (List.range length).map fun k => Memory.read m (Memory.addressOf cells k)

/-- Write bytes `k`, `k + 1`, … of a block with the given cells. -/
def Memory.writeBlock (m : List Host.Cell) (cells : List Nat) (k : Nat) (bytes : List Byte) : List Host.Cell :=
  match bytes with
  | [] => m
  | v :: rest => Memory.writeBlock (Memory.write m (Memory.addressOf cells k) v) cells (k + 1) rest

end Sys2Proof.Machine
end

