-- ==== Sys2Proof/Machine/Codec.lean ====
section
/-!
DEFINITION. Layouts: numbers and bytes, the codes of enumerated values (R188), relay frames (R187), table records and the
start-up image (R190), and the divisor arithmetic whose results the profile record carries (R39 to R41).
-/
namespace Sys2Proof.Machine

/-! ### Numbers and bytes -/

/-- `v` in `n` bytes, most significant first (R187). -/
def bytesOf (n v : Nat) : List Byte :=
  match n with
  | 0 => []
  | k + 1 => BitVec.ofNat 8 (v / 256 ^ k) :: bytesOf k v

/-- The number that bytes spell, most significant first. -/
def numOf (l : List Byte) : Nat := l.foldl (fun a b => a * 256 + b.toNat) 0

/-- The number in `len` bytes of `l` from position `at_`; bytes past the end count as absent. -/
def numAt (l : List Byte) (at_ len : Nat) : Nat := numOf ((l.drop at_).take len)

/-- A signed quantity in four bytes, two's complement (R187). -/
def bytesOfInt (v : Int) : List Byte := bytesOf 4 (BitVec.ofInt 32 v).toNat

/-- A value clamped into a range (R1). -/
def clampNat (lo hi v : Nat) : Nat := max lo (min v hi)

/-- A yes or no byte (R188). -/
def yesNoByte (b : Bool) : List Byte := [if b then 1 else 0]

/-- A number, or 0xFF for none (R188). -/
def optByte (o : Option Nat) : List Byte := [BitVec.ofNat 8 (o.getD 0xFF)]

/-- Milliseconds left, or 0xFFFFFFFF for off (R188). -/
def timeLeft (o : Option Nat) : List Byte := bytesOf 4 (o.getD 0xFFFFFFFF)

/-- The 64-bit set of the members of `Fin n` that satisfy `f`, as 8 bytes, bit k for member k (R188). -/
def portSetBytes (f : PortNo → Bool) : List Byte :=
  bytesOf 8 ((List.finRange 48).foldl (fun a p => if f p then a + 2 ^ p.val else a) 0)

/-! ### Codes of enumerated values: numbered from 0 in the order the defining table lists them (R188) -/

def yesNo? (n : Nat) : Option Bool := match n with | 0 => some false | 1 => some true | _ => none

def MaxRole.code : MaxRole → Nat | .observe => 0 | .own => 1 | .take => 2
def MaxRole.ofCode (n : Nat) : Option MaxRole := match n with | 0 => some .observe | 1 => some .own | 2 => some .take | _ => none

def SignalRight.code : SignalRight → Nat | .noSignal => 0 | .breakOnly => 1 | .all => 2
def SignalRight.ofCode (n : Nat) : Option SignalRight :=
  match n with | 0 => some .noSignal | 1 => some .breakOnly | 2 => some .all | _ => none

def Parity.code : Parity → Nat | .noParity => 0 | .even => 1 | .odd => 2
def Parity.ofCode (n : Nat) : Option Parity := match n with | 0 => some .noParity | 1 => some .even | 2 => some .odd | _ => none

def FlowMode.code : FlowMode → Nat | .noFlow => 0 | .soft => 1 | .hard => 2
def FlowMode.ofCode (n : Nat) : Option FlowMode := match n with | 0 => some .noFlow | 1 => some .soft | 2 => some .hard | _ => none

def ErrorPolicy.code : ErrorPolicy → Nat | .keep => 0 | .drop => 1
def ErrorPolicy.ofCode (n : Nat) : Option ErrorPolicy := match n with | 0 => some .keep | 1 => some .drop | _ => none

def PresenceSource.code : PresenceSource → Nat | .noSource => 0 | .dsr => 1
def PresenceSource.ofCode (n : Nat) : Option PresenceSource := match n with | 0 => some .noSource | 1 => some .dsr | _ => none

def LineControl.code : LineControl → Nat | .auto => 0 | .manual => 1
def LineControl.ofCode (n : Nat) : Option LineControl := match n with | 0 => some .auto | 1 => some .manual | _ => none

def AuxUse.code : AuxUse → Nat | .noUse => 0 | .resetAssist => 1
def AuxUse.ofCode (n : Nat) : Option AuxUse := match n with | 0 => some .noUse | 1 => some .resetAssist | _ => none

def AuxLevel.code : AuxLevel → Nat | .high => 0 | .low => 1
def AuxLevel.ofCode (n : Nat) : Option AuxLevel := match n with | 0 => some .high | 1 => some .low | _ => none

def BreakPolicy.code : BreakPolicy → Nat | .pass => 0 | .refuse => 1
def BreakPolicy.ofCode (n : Nat) : Option BreakPolicy := match n with | 0 => some .pass | 1 => some .refuse | _ => none

def FanoutMode.code : FanoutMode → Nat | .hold => 0 | .drop => 1
def FanoutMode.ofCode (n : Nat) : Option FanoutMode := match n with | 0 => some .hold | 1 => some .drop | _ => none

def Line.ofCode (n : Nat) : Option Line := match n with | 0 => some .rts | 1 => some .dtr | 2 => some .aux | _ => none
def Line.code : Line → Nat | .rts => 0 | .dtr => 1 | .aux => 2

def Drive.ofCode (n : Nat) : Option Drive := match n with | 0 => some .assert | 1 => some .deassert | 2 => some .release | _ => none
def Drive.code : Drive → Nat | .assert => 0 | .deassert => 1 | .release => 2

def SignalKind.code : SignalKind → Nat | .breakSignal => 0 | .auxPulse => 1 | .dtrPulse => 2
def PortState.code : PortState → Nat | .disabled => 0 | .active => 1 | .reconfig => 2 | .localHold => 3
def HeadHold.code : HeadHold → Nat | .noHold => 0 | .held => 1 | .retry => 2 | .forfeit => 3
def Pause.code : Pause → Nat | .released => 0 | .asserted => 1
def Role.code : Role → Nat | .owner => 0 | .observer => 1
def SessionState.code : SessionState → Nat | .free => 0 | .active => 1 | .draining => 2
def BlockKind.code : BlockKind → Nat | .output => 0 | .keys => 1
def ImageState.code : ImageState → Nat | .valid => 0 | .noImage => 1 | .saving => 2
/-- "either up or down" (log 20). -/
def Link.code : Link → Nat | .up => 0 | .down => 1
/-- "on or off" (R13; log 20). -/
def commissioningCode (on : Bool) : Nat := if on then 0 else 1
def CloseReason.code : CloseReason → Nat
  | .full => 0 | .limit => 1 | .gap => 2 | .trigger => 3 | .breakFound => 4 | .portEvent => 5
def EndReason.code : EndReason → Nat
  | .detached => 0 | .timeout => 1 | .portDisabled => 2 | .portReset => 3 | .peerRemoved => 4 | .restart => 5
def EventReason.code : EventReason → Nat
  | .demoted => 0 | .localPresence => 1 | .timeout => 2 | .portDisabled => 3 | .portReset => 4 | .peerRemoved => 5
def ResultCode.code : ResultCode → Nat
  | .ok => 0 | .adjusted => 1 | .flushed => 2 | .badFormat => 3 | .badValue => 4 | .noRight => 5 | .noSession => 6
  | .notOwner => 7 | .badState => 8 | .busy => 9 | .full => 10 | .localPresence => 11 | .attentionPending => 12
  | .inUse => 13 | .noRoom => 14 | .aborted => 15
/-- The number of a condition in the order of the table of R178. -/
def Condition.code : Condition → Nat
  | .overrun => 0 | .framing => 1 | .parity => 2 | .rxBreak => 3 | .pattern => 4 | .localPresence => 5
  | .holdExpired => 6 | .historyYield => 7 | .pause => 8 | .reconfigFlush => 9

def TapDirection.code : TapDirection → Nat | .output => 0 | .keys => 1 | .both => 2 | .undefined c => c.toNat
def TapDirection.ofCode (n : Nat) : TapDirection :=
  match n with | 0 => .output | 1 => .keys | 2 => .both | k => .undefined (BitVec.ofNat 8 k)
def MarkedOnly.code : MarkedOnly → Nat | .no => 0 | .yes => 1 | .undefined c => c.toNat
def MarkedOnly.ofCode (n : Nat) : MarkedOnly := match n with | 0 => .no | 1 => .yes | k => .undefined (BitVec.ofNat 8 k)

/-- A Peer Table index, or 0xFF for none. -/
def optPeer? (n : Nat) : Option (Option PeerNo) :=
  if n = 0xFF then some none else if h : n < 32 then some (some ⟨n, h⟩) else none

/-! ### Relay frames (R187) -/

def broadcast : Mac := 0xFFFFFFFFFFFF#48
def etherType : Nat := 0x88B5
def protocolVersion : Nat := 1
def kindIdentify : Byte := 0x01
def kindReply : Byte := 0x80
def kindOutput : Byte := 0x81
def kindTapcopy : Byte := 0x82
def kindNotice : Byte := 0x83

/-- Bytes before the body, and bytes of the frame check sequence. -/
def headerBytes : Nat := 24
def fcsBytes : Nat := 4

/-- The checks of R2 on a frame that arrives whole, and the fields of a frame that passes them. -/
def acceptFrame (station : Mac) (frame : List Byte) (goodFcs : Bool) : Option RelayFrame :=
  let n := frame.length
  let destination : Mac := BitVec.ofNat 48 (numAt frame 0 6)
  let kind : Byte := BitVec.ofNat 8 (numAt frame 15 1)
  let bodyLength := numAt frame 22 2
  if goodFcs = false then none
  else if n < 64 ∨ 1518 < n then none
  else if destination ≠ station ∧ destination ≠ broadcast then none
  else if numAt frame 12 2 ≠ etherType then none
  else if n < headerBytes + fcsBytes then none
  else if numAt frame 14 1 ≠ protocolVersion then none
  else if n - (headerBytes + fcsBytes) < bodyLength then none
  else if destination = broadcast ∧ kind ≠ kindIdentify then none
  else some
    { source := BitVec.ofNat 48 (numAt frame 6 6)
      kind
      peerId := BitVec.ofNat 16 (numAt frame 16 2)
      tag := BitVec.ofNat 16 (numAt frame 18 2)
      session := BitVec.ofNat 8 (numAt frame 20 1)
      body := (frame.drop headerBytes).take bodyLength }

/-- A frame the part sends up to its frame check sequence: header, body, and zero bytes up to byte 60 (R187). -/
def frameHead (station : Mac) (dst : Address) (kind : Byte) (tag : Word16) (session : Byte) (body : List Byte) :
    List Byte :=
  let f := bytesOf 6 dst.mac.toNat ++ bytesOf 6 station.toNat ++ bytesOf 2 etherType ++ bytesOf 1 protocolVersion
    ++ [kind] ++ bytesOf 2 dst.peerId.toNat ++ bytesOf 2 tag.toNat ++ [session] ++ [0] ++ bytesOf 2 body.length ++ body
  f ++ List.replicate (60 - f.length) 0

/-- A whole frame the part sends, with its frame check sequence (R187, R2). -/
def sentFrame (station : Mac) (dst : Address) (kind : Byte) (tag : Word16) (session : Byte) (body : List Byte) :
    List Byte :=
  let f := frameHead station dst kind tag session body
  f ++ bytesOf 4 (Config.fcs f).toNat

/-! ### Divisor arithmetic -/

/-- D8 before its clamp: 14,745,600 / r to the nearest whole number, a half rounded up (R39). -/
def divisorOf (rate : Nat) : Nat := (29491200 + rate) / (2 * rate)

/-- D8 (R39). -/
def d8Of (rate : Nat) : Nat := clampNat 8 524287 (divisorOf rate)

/-- The achieved rate (R40). -/
def achievedOf (rate : Nat) : Nat := 14745600 / d8Of rate

/-- The rate error in ppm, truncated toward zero (R40). -/
def rateErrorOf (rate : Nat) : Int :=
  Int.tdiv (((14745600 : Int) - (rate * d8Of rate : Nat)) * 1000000) ((rate * d8Of rate : Nat) : Int)

/-- The bits of one character (R41). -/
def charBitsOf (dataBits : Nat) (parity : Parity) (stopBits : Nat) : Nat :=
  1 + dataBits + (if parity = .noParity then 0 else 1) + stopBits

/-- Compute the derived fields of an entry afresh (R42). -/
def Profile.withDerived (e : Profile) : Profile :=
  { e with d8 := d8Of e.rate, achieved := achievedOf e.rate, rateError := rateErrorOf e.rate,
           charBits := charBitsOf e.dataBits e.parity e.stopBits }

/-- The rate makes a load's result ADJUSTED: its divisor was clamped, or its error exceeds 10,000 ppm (R39, R40). -/
def rateAdjusts (rate : Nat) : Bool :=
  d8Of rate ≠ divisorOf rate || (rateErrorOf rate).natAbs > 10000

/-! ### Table records (R190) -/

def SystemRecord.bytes (s : SystemRecord) : List Byte :=
  bytesOf 6 s.station.toNat ++ bytesOf 2 s.rate ++ bytesOf 2 s.burst ++ optByte (s.supervisor.map Fin.val) ++ [0]

/-- Read a system record under the checks of LOAD SYSTEM (R167). -/
def SystemRecord.ofBytes (r : List Byte) : Option SystemRecord := do
  let station : Mac := BitVec.ofNat 48 (numAt r 0 6)
  let rate := numAt r 6 2
  let burst := numAt r 8 2
  let supervisor ← optPeer? (numAt r 10 1)
  guard (station ≠ 0 ∧ station.getLsbD 40 = false)
  guard (1 ≤ rate ∧ rate ≤ 12500)
  guard (1518 ≤ burst ∧ burst ≤ 65535)
  return { station, rate, burst, supervisor }

def Peer.bytes (e : Peer) : List Byte :=
  yesNoByte e.valid ++ bytesOf 6 e.mac.toNat ++ bytesOf 2 e.peerId.toNat ++ bytesOf 8 e.mask.toNat
    ++ bytesOf 1 e.maxRole.code ++ bytesOf 1 e.signalRight.code
    ++ bytesOf 1 (e.configure.toNat + 2 * e.supervisor.toNat + 4 * e.collector.toNat)

/-- Read a peer record; none when a field lies outside its values (R8, R9, R188, R190). -/
def Peer.ofBytes (r : List Byte) : Option Peer := do
  let valid ← yesNo? (numAt r 0 1)
  let mask := numAt r 9 8
  let maxRole ← MaxRole.ofCode (numAt r 17 1)
  let signalRight ← SignalRight.ofCode (numAt r 18 1)
  let rights := numAt r 19 1
  guard (mask < 2 ^ 48)
  guard (rights < 8)
  return { valid, mac := BitVec.ofNat 48 (numAt r 1 6), peerId := BitVec.ofNat 16 (numAt r 7 2),
           mask := BitVec.ofNat 48 mask, maxRole, signalRight, configure := rights.testBit 0,
           supervisor := rights.testBit 1, collector := rights.testBit 2 }

def Profile.bytes (e : Profile) : List Byte :=
  yesNoByte e.enabled ++ bytesOf 3 e.rate ++ bytesOf 1 e.dataBits ++ bytesOf 1 e.parity.code ++ bytesOf 1 e.stopBits
    ++ bytesOf 1 e.flow.code ++ bytesOf 1 e.errorPolicy.code ++ bytesOf 1 e.presenceSource.code
    ++ bytesOf 1 e.rtsControl.code ++ bytesOf 1 e.dtrControl.code ++ bytesOf 1 e.auxControl.code
    ++ bytesOf 1 e.auxUse.code ++ bytesOf 1 e.auxLevel.code ++ bytesOf 2 e.auxPulse ++ bytesOf 1 e.breakPolicy.code
    ++ bytesOf 1 e.reserve ++ bytesOf 2 e.shareLimit ++ bytesOf 2 e.pauseOn ++ bytesOf 2 e.pauseOff
    ++ bytesOf 2 e.historyLimit ++ bytesOf 2 e.blockLimit ++ bytesOf 1 e.idleGap ++ bytesOf 2 e.triggerSet.toNat
    ++ bytesOf 1 e.mode.code ++ bytesOf 1 e.holdLimit ++ bytesOf 1 e.pressureThreshold ++ bytesOf 1 e.pressureCopies
    ++ bytesOf 2 e.noticeMask.toNat ++ [0, 0]

/-- The derived fields that follow a profile record in a reply (R188). -/
def Profile.derivedBytes (e : Profile) : List Byte :=
  bytesOf 4 e.d8 ++ bytesOf 4 e.achieved ++ bytesOfInt e.rateError ++ bytesOf 1 e.charBits ++ [0, 0, 0]

/-- The consistency checks of R43. -/
def Profile.consistent (e : Profile) : Bool :=
  decide (e.pauseOff < e.pauseOn) && !(e.flow == .hard && e.rtsControl == .manual)
    && !(e.auxUse == .resetAssist && e.auxControl == .manual)

/-- Read a profile record under the field and consistency checks of LOAD PROFILE, with its clamped fields clamped and its
derived fields computed; the Bool says that the load is to be answered ADJUSTED (R42, R43, R39, R40). -/
def Profile.ofBytes (r : List Byte) : Option (Profile × Bool) := do
  let enabled ← yesNo? (numAt r 0 1)
  let rate := numAt r 1 3
  let dataBits := numAt r 4 1
  let parity ← Parity.ofCode (numAt r 5 1)
  let stopBits := numAt r 6 1
  let flow ← FlowMode.ofCode (numAt r 7 1)
  let errorPolicy ← ErrorPolicy.ofCode (numAt r 8 1)
  let presenceSource ← PresenceSource.ofCode (numAt r 9 1)
  let rtsControl ← LineControl.ofCode (numAt r 10 1)
  let dtrControl ← LineControl.ofCode (numAt r 11 1)
  let auxControl ← LineControl.ofCode (numAt r 12 1)
  let auxUse ← AuxUse.ofCode (numAt r 13 1)
  let auxLevel ← AuxLevel.ofCode (numAt r 14 1)
  let auxPulse := numAt r 15 2
  let breakPolicy ← BreakPolicy.ofCode (numAt r 17 1)
  let reserve := numAt r 18 1
  let shareLimit := numAt r 19 2
  let pauseOn := numAt r 21 2
  let pauseOff := numAt r 23 2
  let historyLimit := numAt r 25 2
  let blockLimit := numAt r 27 2
  let idleGap := numAt r 29 1
  let mode ← FanoutMode.ofCode (numAt r 32 1)
  let holdLimit := numAt r 33 1
  let pressureThreshold := numAt r 34 1
  let pressureCopies := numAt r 35 1
  let noticeMask := numAt r 36 2
  guard (rate ≠ 0)
  guard (dataBits = 7 ∨ dataBits = 8)
  guard (stopBits = 1 ∨ stopBits = 2)
  guard (shareLimit ≤ 4095)
  guard (1 ≤ pauseOn ∧ pauseOn ≤ 4095)
  guard (pauseOff ≤ 4094)
  guard (historyLimit ≤ 1024)
  guard (holdLimit ≤ 60)
  guard (pressureThreshold ≤ 63)
  guard (1 ≤ pressureCopies ∧ pressureCopies ≤ 8)
  guard (noticeMask < 2 ^ 10)
  let entry : Profile := Profile.withDerived
    { enabled, rate, dataBits, parity, stopBits, flow, errorPolicy, presenceSource, rtsControl, dtrControl,
      auxControl, auxUse, auxLevel, auxPulse := clampNat 10 10000 auxPulse, breakPolicy, reserve, shareLimit,
      pauseOn, pauseOff, historyLimit, blockLimit := clampNat 16 512 blockLimit, idleGap := clampNat 1 255 idleGap,
      triggerSet := BitVec.ofNat 16 (numAt r 30 2), mode, holdLimit, pressureThreshold, pressureCopies,
      noticeMask := BitVec.ofNat 10 noticeMask, d8 := 0, achieved := 0, rateError := 0, charBits := 0 }
  guard (entry.consistent = true)
  return (entry, decide (entry.auxPulse ≠ auxPulse ∨ entry.blockLimit ≠ blockLimit ∨ entry.idleGap ≠ idleGap)
    || rateAdjusts rate)

def Trigger.bytes (t : Trigger) : List Byte :=
  yesNoByte t.valid ++ bytesOf 1 t.length ++ t.pattern.toList ++ [t.actions] ++ bytesOf 1 t.markGroup

/-- Pattern bytes beyond the pattern length are stored as 0 (R92). -/
def patternOf (bytes : List Byte) (length : Nat) : Vector Byte 12 :=
  ⟨⟨(List.range 12).map fun k => if k < length then bytes.getD k 0 else 0⟩, by simp⟩

/-- The fields of a trigger record as they stand (R190). -/
def Trigger.rawOfBytes (r : List Byte) (valid : Bool) : Trigger :=
  let length := numAt r 1 1
  { valid, length, pattern := patternOf (r.drop 2) length, actions := BitVec.ofNat 8 (numAt r 14 1),
    markGroup := numAt r 15 1 }

/-- Read a trigger record under the checks of LOAD TRIGGER (R92). -/
def Trigger.ofBytes (r : List Byte) : Option Trigger := do
  let valid ← yesNo? (numAt r 0 1)
  let t := Trigger.rawOfBytes r valid
  guard (valid = true → 1 ≤ t.length ∧ t.length ≤ 12)
  guard (t.markGroup ≤ 7)
  guard (t.actions.toNat < 8)
  return t

/-- Read a trigger record of the image: an entry marked valid whose pattern length or mark group lies outside its set is loaded
as not valid (R91). DESIGN CHOICE (log 52): so is one with an action bit 3 to 7 set, of which R91 says nothing, and a valid byte
of 2 or more counts as not valid. -/
def Trigger.ofImage (r : List Byte) : Trigger :=
  let t := Trigger.rawOfBytes r (numAt r 0 1 = 1)
  { t with valid := t.valid && decide (1 ≤ t.length ∧ t.length ≤ 12 ∧ t.markGroup ≤ 7 ∧ t.actions.toNat < 8) }

def TapEntry.bytes (e : TapEntry) : List Byte :=
  yesNoByte e.enabled ++ bytesOf 1 e.collector ++ bytesOf 1 e.direction.code ++ bytesOf 8 e.portMask.toNat
    ++ optByte e.peerFilter ++ bytesOf 1 e.markedOnly.code ++ [e.groupMask] ++ bytesOf 1 e.weight
    ++ bytesOf 2 e.queueLimit ++ [0, 0, 0]

/-- The fields of a tap record as they stand, with the weight and the queue limit clamped (R143, R145, R190). -/
def TapEntry.rawOfBytes (r : List Byte) (enabled : Bool) : TapEntry :=
  { enabled, collector := numAt r 1 1, direction := .ofCode (numAt r 2 1), portMask := BitVec.ofNat 64 (numAt r 3 8),
    peerFilter := if numAt r 11 1 = 0xFF then none else some (numAt r 11 1), markedOnly := .ofCode (numAt r 12 1),
    groupMask := BitVec.ofNat 8 (numAt r 13 1), weight := clampNat 1 15 (numAt r 14 1),
    queueLimit := clampNat 4 255 (numAt r 15 2) }

/-- Every field lies in its set (R143, R145). -/
def TapEntry.inRange (e : TapEntry) : Bool :=
  decide (e.collector < 32) && decide (e.peerFilter.getD 0 < 32) && decide (e.portMask.toNat < 2 ^ 48)
    && (e.direction == .output || e.direction == .keys || e.direction == .both)
    && (e.markedOnly == .no || e.markedOnly == .yes)

/-- Read a tap record under the field checks of LOAD TAP; the Bool says that a field was clamped (R145). -/
def TapEntry.ofBytes (r : List Byte) : Option (TapEntry × Bool) := do
  let enabled ← yesNo? (numAt r 0 1)
  let e := TapEntry.rawOfBytes r enabled
  guard (e.inRange = true)
  return (e, decide (e.weight ≠ numAt r 14 1 ∨ e.queueLimit ≠ numAt r 15 2))

/-- The checks on an enabled tap: an eligible collector, and groups to match when marked-only (R145). -/
def TapEntry.mayBeEnabled (e : TapEntry) (peers : Vector Peer 32) : Bool :=
  (if h : e.collector < 32 then peers[e.collector].valid && peers[e.collector].collector else false)
    && (e.markedOnly == .no || decide (e.groupMask ≠ 0))

/-- Read a tap record of the image against the loaded peers (R143; log 19). DESIGN CHOICE (log 54): R143 loads an entry as not enabled
when a field lies outside its values and also clamps the weight and the queue limit; the model clamps those two, as LOAD TAP does
(R145), and lets the entry be enabled. -/
def TapEntry.ofImage (r : List Byte) (peers : Vector Peer 32) : TapEntry :=
  let e := TapEntry.rawOfBytes r (numAt r 0 1 = 1)
  { e with enabled := e.enabled && e.inRange && e.mayBeEnabled peers }

/-! ### The start-up image (R183, R190) -/

/-- One bit of the CRC-32 (R183): a bit of the data that differs from the bit leaving the bottom of the register combines
the shifted register with 0xEDB88320. -/
def crc32Bit (r : BitVec 32) (bit : Bool) : BitVec 32 :=
  if r.getLsbD 0 != bit then (r >>> 1) ^^^ 0xEDB88320#32 else r >>> 1

/-- One byte, least significant bit first. -/
def crc32Byte (r : BitVec 32) (b : Byte) : BitVec 32 :=
  (List.range 8).foldl (fun r k => crc32Bit r (b.getLsbD k)) r

/-- The CRC-32 of R183. -/
def crc32 (l : List Byte) : BitVec 32 := ~~~(l.foldl crc32Byte 0xFFFFFFFF#32)

/-- The five tables that the image holds. -/
structure Tables where
  system : SystemRecord
  peers : Vector Peer 32
  profiles : Vector Profile 48
  triggers : Vector Trigger 16
  taps : Vector TapEntry 4
  deriving DecidableEq, Repr

def imageMarker : Nat := 0x4E4B3438
def imageVersion : Nat := 1
def recordBytes : Nat := 2908

def Tables.records (t : Tables) : List Byte :=
  t.system.bytes ++ t.peers.toList.flatMap Peer.bytes ++ t.profiles.toList.flatMap Profile.bytes
    ++ t.triggers.toList.flatMap Trigger.bytes ++ t.taps.toList.flatMap TapEntry.bytes

/-- The image SAVE writes: header, records, CRC-32 (R185, R190). -/
def Tables.image (t : Tables) : List Byte :=
  let l := bytesOf 4 imageMarker ++ bytesOf 2 imageVersion ++ bytesOf 4 recordBytes ++ [0, 0] ++ t.records
  l ++ bytesOf 4 (crc32 l).toNat

/-- `n` records of `size` bytes from position `at_`. -/
def recordsAt (l : List Byte) (at_ size n : Nat) : List (List Byte) :=
  (List.range n).map fun k => (l.drop (at_ + k * size)).take size

/-- A table of `n` entries from a list, filled up with `d`. -/
def tableOf {α : Type} (n : Nat) (l : List α) (d : α) : Vector α n :=
  ⟨⟨(List.range n).map fun k => l.getD k d⟩, by simp⟩

/-- Two valid entries with the same MAC address and peer id (R8). -/
def Peer.sameIdentity (a b : Peer) : Bool := a.valid && b.valid && a.mac == b.mac && a.peerId == b.peerId

/-- The peers of an image in index order: a faulty record is loaded as not valid with its other fields zero, and of two
valid entries with one identity the higher is loaded as not valid (R8; log 19). -/
def peersOfImage (records : List (List Byte)) : List Peer :=
  let read := records.map fun r => (Peer.ofBytes r).getD .empty
  (List.range read.length).map fun k =>
    let e := read.getD k .empty
    if (read.take k).any (Peer.sameIdentity e) then { e with valid := false } else e

/-- The profiles of an image, if every record passes the checks of R43. -/
def profilesOfImage (records : List (List Byte)) : Option (List Profile) :=
  records.mapM fun r => (Profile.ofBytes r).map Prod.fst

/-- The check of R183, and the tables of an image that passes it, read in the order of R184. DESIGN CHOICE (log 51): the CRC-32
takes the reserved bytes as they stand, since R190 puts it over the whole header and records, though R190 also says that the check
takes no account of them; an image in which one of them alone was altered fails. -/
def loadImage (l : List Byte) : Option Tables := do
  guard (l.length = Config.imageSize)
  guard (numAt l 0 4 = imageMarker)
  guard (numAt l 4 2 = imageVersion)
  guard (numAt l 6 4 = recordBytes)
  guard (numAt l 2920 4 = (crc32 (l.take 2920)).toNat)
  let system ← SystemRecord.ofBytes ((l.drop 12).take 12)
  let profiles ← profilesOfImage (recordsAt l 664 40 48)
  guard ((profiles.map Profile.reserve).sum ≤ 2048)
  let peers := tableOf 32 (peersOfImage (recordsAt l 24 20 32)) .empty
  return { system, peers, profiles := tableOf 48 profiles .default,
           triggers := tableOf 16 ((recordsAt l 2584 16 16).map Trigger.ofImage) .empty,
           taps := tableOf 4 ((recordsAt l 2840 20 4).map fun r => TapEntry.ofImage r peers) .empty }

end Sys2Proof.Machine
end

