-- ==== Sys2Proof/Machine/Flags.lean ====
section
/-!
DEFINITION. Condition flags as bits, the session digests, the comparison of offsets, and the bits of a character on a line.
-/
namespace Sys2Proof.Machine

/-- The bit of a condition in a set of conditions (R188). -/
def Condition.bit (c : Condition) : BitVec 10 := BitVec.twoPow 10 c.code

/-- The set of conditions names this one. -/
def hasCondition (set : BitVec 10) (c : Condition) : Bool := set.getLsbD c.code

/-- Offset `a` is before offset `b`: (b − a) mod 2^32 lies between 1 and 2^31 − 1 (R1). -/
def offsetBefore (a b : Word32) : Bool := decide (1 ≤ (b - a).toNat ∧ (b - a).toNat ≤ 2 ^ 31 - 1)

/-- One bit of the CRC-16 (R29): the register shifts left, and a dropped bit that differs from the data's bit combines it
with 0x1021. -/
def digestBit (d : Word16) (bit : Bool) : Word16 :=
  if d.getLsbD 15 != bit then (d <<< 1) ^^^ 0x1021#16 else d <<< 1

/-- Fold one byte into a digest, most significant bit first (R29). -/
def foldByte (d : Word16) (b : Byte) : Word16 :=
  (List.range 8).foldl (fun d k => digestBit d (b.getLsbD (7 - k))) d

/-- Fold bytes in order (R137). -/
def foldBytes (d : Word16) (l : List Byte) : Word16 := l.foldl foldByte d

/-- What both digests start from (R29). -/
def digestStart : Word16 := 0xFFFF

/-- A byte on a line of the given data bits: seven-bit formats carry the low seven bits (R23, R30). -/
def lineByte (dataBits : Nat) (b : Byte) : Byte := if dataBits = 7 then b &&& 0x7F else b

/-- The number of one bits in a byte. -/
def onesOf (b : Byte) : Nat := (List.range 8).foldl (fun n k => n + (b.getLsbD k).toNat) 0

/-- The parity check of R30 over the data bits and the parity bit. -/
def parityGood (p : Parity) (data : Byte) (parityBit : Bool) : Bool :=
  match p with
  | .noParity => true
  | .even => (onesOf data + parityBit.toNat) % 2 == 0
  | .odd => (onesOf data + parityBit.toNat) % 2 == 1

/-- XON and XOFF as bytes on a line (R33). -/
def xonByte : Byte := 0x11
def xoffByte : Byte := 0x13

/-- The byte of a flow character. -/
def FlowChar.byte : FlowChar → Byte
  | .xon => xonByte
  | .xoff => xoffByte

/-! ### A character as it is sent; a bit is true at mark, and a data bit that is one stands at mark (R30, R31) -/

/-- The data bits of a byte in the order they are sent, least significant first: the low seven on a port with seven (R23, R30). -/
def dataBitsSent (dataBits : Nat) (b : Byte) : List Bool := (List.range dataBits).map b.getLsbD

/-- The parity bit sent behind these data bits, if the profile has parity: under EVEN it makes the number of ones among all of them
even, and under ODD odd (R30). -/
def paritySent (p : Parity) (data : List Bool) : Option Bool :=
  match p with
  | .noParity => none
  | .even => some (data.count true % 2 == 1)
  | .odd => some (data.count true % 2 == 0)

/-- A character of the profile's format, bit by bit: the start bit at space, the data bits, the parity bit if the profile has parity,
and the stop bits at mark (R23, R30). -/
def characterSent (e : Profile) (b : Byte) : List Bool :=
  let data := dataBitsSent e.dataBits b
  [false] ++ data ++ (paritySent e.parity data).toList ++ List.replicate e.stopBits true

end Sys2Proof.Machine
end

