-- ==== Sys2Proof/Machine/Ops.lean ====
section
/-!
DEFINITION. The named operations over the state: accessors, replies, notices, conditions, the lines and the transmit half of a
port, blocks and their holds, references, ownership. Everything else is built from these.
-/
namespace Sys2Proof.Machine

/-! ### Tables of fixed size -/

/-- Apply a function to every entry of a table. -/
def mapTable {α β : Type} {n : Nat} (v : Vector α n) (f : α → β) : Vector β n := ⟨⟨v.toList.map f⟩, by simp⟩

def Part.port (s : Part) (p : PortNo) : Port := s.ports[p]
def Part.setPort (s : Part) (p : PortNo) (x : Port) : Part := { s with ports := s.ports.set p x }
def Part.modPort (s : Part) (p : PortNo) (f : Port → Port) : Part := s.setPort p (f (s.port p))

def Part.session (s : Part) (n : SessionNo) : Session := s.sessions[n]
def Part.setSession (s : Part) (n : SessionNo) (x : Session) : Part := { s with sessions := s.sessions.set n x }
def Part.modSession (s : Part) (n : SessionNo) (f : Session → Session) : Part := s.setSession n (f (s.session n))

def Part.tap (s : Part) (t : TapNo) : Tap := s.taps[t]
def Part.setTap (s : Part) (t : TapNo) (x : Tap) : Part := { s with taps := s.taps.set t x }
def Part.modTap (s : Part) (t : TapNo) (f : Tap → Tap) : Part := s.setTap t (f (s.tap t))

def Part.queue (s : Part) (q : QueueNo) : List Ref := s.queues[q]
def Part.setQueue (s : Part) (q : QueueNo) (l : List Ref) : Part := { s with queues := s.queues.set q l }

def Part.peer (s : Part) (i : PeerNo) : Peer := s.peers[i]
def Part.setPeer (s : Part) (i : PeerNo) (e : Peer) : Part := { s with peers := s.peers.set i e }

def Part.slot (s : Part) (k : SlotNo) : Slot := s.slots[k]
def Part.setSlot (s : Part) (k : SlotNo) (x : Slot) : Part := { s with slots := s.slots.set k x }

def Part.trigger (s : Part) (t : TriggerNo) : Trigger := s.triggers[t]

/-- Queue n for n below 64 belongs to session n; queues 64 to 67 to taps 0 to 3 (R75). -/
def sessionQueue (n : SessionNo) : QueueNo := ⟨n.val, by omega⟩
def tapQueue (t : TapNo) : QueueNo := ⟨64 + t.val, by omega⟩

/-- Whose queue it is. -/
def queueOwner (q : QueueNo) : SessionNo ⊕ TapNo :=
  if h : q.val < 64 then .inl ⟨q.val, h⟩ else .inr ⟨q.val - 64, by omega⟩

def allPorts : List PortNo := List.finRange 48
def allSessions : List SessionNo := List.finRange 64
def allTaps : List TapNo := List.finRange 4
def allPeers : List PeerNo := List.finRange 32
def allSlots : List SlotNo := List.finRange 32
def allTriggers : List TriggerNo := List.finRange 16

/-! ### Replies (R14) -/

/-- A free slot, the lowest-numbered (log 13). -/
def Part.freeSlot (s : Part) : Option SlotNo := allSlots.find? fun k => s.slot k == .free

/-- Reply Queue slots not free (R19). -/
def Part.slotsTaken (s : Part) : Nat := (allSlots.filter fun k => s.slot k != .free).length

/-- Form the reply of a reserved slot; it joins the formed replies at their end (R14). -/
def formReply (k : SlotNo) (code : ResultCode) (data : List Byte) (s : Part) : Part :=
  match s.slot k with
  | .reserved h => { s.setSlot k (.formed h code data) with formed := s.formed ++ [k] }
  | .free => s
  | .formed _ _ _ => s

/-! ### Notices and conditions (R178 to R182) -/

/-- Offer a formed notice to the Notice Queue (R181). -/
def offerNotice (n : Notice) (s : Part) : Part :=
  if s.notices.length < Config.noticePlaces then
    { s with notices := s.notices ++ [{ n with lost := s.noticesLost }], noticesLost := false }
  else { s with noticesLost := true }

/-- Where PORT_CONDITION notices go: the entry the settings name, while it is valid with its supervisor field yes (R8). -/
def Part.supervisor (s : Part) : Option Address :=
  match s.system.supervisor with
  | none => none
  | some i => if (s.peer i).valid && (s.peer i).supervisor then some ⟨(s.peer i).mac, (s.peer i).peerId⟩ else none

/-- The notice of a condition of a port, as the port stands (R179). -/
def conditionNotice (p : PortNo) (x : Port) (c : Condition) (dst : Address) : Notice :=
  { dst, lost := false, marks := none
    body := .portCondition p x.epoch c x.conditions (if c = .pattern then x.pattern else none) }

/-- Set a condition of a port; going from clear to set it forms a notice when the mask names it and there is a supervisor
(R178, R179). -/
def setCondition (p : PortNo) (c : Condition) (s : Part) : Part :=
  if hasCondition (s.port p).conditions c then s
  else
    let x := { s.port p with conditions := (s.port p).conditions ||| c.bit }
    let s := s.setPort p x
    if hasCondition x.profile.noticeMask c then
      match s.supervisor with
      | some dst => offerNotice (conditionNotice p x c dst) s
      | none => s
    else s

/-- The ten conditions in the order of the table of R178. -/
def allConditions : List Condition :=
  [.overrun, .framing, .parity, .rxBreak, .pattern, .localPresence, .holdExpired, .historyYield, .pause, .reconfigFlush]

/-- The conditions of the table of R178 up to and with this one. -/
def Condition.upTo (c : Condition) : BitVec 10 := BitVec.ofNat 10 (2 ^ (c.code + 1) - 1)

/-- The condition of port p that a notice reports, if it is a PORT_CONDITION notice of p (R182). -/
def Notice.conditionOf (p : PortNo) (n : Notice) : Option Condition :=
  match n.body with
  | .portCondition q _ c _ _ => if q = p then some c else none
  | .sessionEvent _ _ _ _ _ => none
  | .attention _ _ _ _ _ => none

/-- A PORT_CONDITION notice with the port's ten conditions as given (R179). -/
def Notice.withConditions (n : Notice) (set : BitVec 10) : Notice :=
  match n.body with
  | .portCondition q epoch c _ r => { n with body := .portCondition q epoch c set r }
  | .sessionEvent _ _ _ _ _ => n
  | .attention _ _ _ _ _ => n

/-- Put the second list's notices, in turn, at the places where the first has a PORT_CONDITION notice of p. -/
def refill (p : PortNo) (l : List Notice) (sorted : List Notice) : List Notice :=
  match l with
  | [] => []
  | n :: rest =>
    if (n.conditionOf p).isSome then sorted.take 1 ++ refill p rest sorted.tail else n :: refill p rest sorted

/-- The notices `l` of one event with port p's in the order of the table of R178, each with the conditions as they stand once those
before it in the table and itself are set; `own` holds every notice of p that the event forms, and the port's conditions went from
`old` to `new` (R179; log 15). -/
def tableOrdered (p : PortNo) (old new : BitVec 10) (own l : List Notice) : List Notice :=
  refill p l (allConditions.filterMap fun c =>
    (own.find? fun n => n.conditionOf p == some c).map fun n => n.withConditions (old ||| (new &&& c.upTo)))

/-- The part with the notice masks of all ports but p empty, so that no notice of another port's condition is formed. -/
def Part.mutedBut (s : Part) (p : PortNo) : Part :=
  { s with ports := Vector.ofFn fun q =>
      if q = p then s.port q else { s.port q with profile := { (s.port q).profile with noticeMask := 0 } } }

/-- Carry out `f` as one event of port p: the notices it offers are queued with p's conditions in the order of the table of R178
(R179; log 15). The list `t.notices` holds the first 32 that `f` offers, and no more than those can find room; where it offers more,
p's own, of which one event has at most ten, are those of `f` with the other ports muted, so that the earliest in the table take
p's places. No `f` it is used with reads the Notice Queue, or another port's mask but to form a notice. -/
def inTableOrder (p : PortNo) (f : Part → Part) (s : Part) : Part :=
  let start := { s with notices := [], noticesLost := false }
  let t := f start
  let own := if t.noticesLost then (f (start.mutedBut p)).notices else t.notices
  let offered := tableOrdered p (s.port p).conditions (t.port p).conditions own t.notices
  let u := offered.foldl (fun s n => offerNotice n s) { t with notices := s.notices, noticesLost := s.noticesLost }
  if t.noticesLost then { u with noticesLost := true } else u

/-! ### One port: engine, presence, lines -/

/-- The engine runs while the port is not DISABLED (R21). -/
def Port.running (x : Port) : Bool := x.portState != .disabled

/-- Presence is asserted (R56). -/
def Port.presence (x : Port) : Bool := x.profile.presenceSource == .dsr && x.dsrDebounced

def Port.signalIs (x : Port) (k : SignalKind) : Bool := x.signal.any fun g => g.kind == k

/-- The value of each line under AUTO control (R169). -/
def Port.autoLines (x : Port) : LineDrive :=
  if x.running then
    { rts := if x.profile.flow = .hard ∧ x.engine.pause = .asserted then .deassert else .assert
      dtr := if x.signalIs .dtrPulse then .deassert else .assert
      aux := if x.signalIs .auxPulse then .assert else .deassert }
  else .allDeassert

/-- Give every AUTO line its value; a MANUAL line keeps its own (R169). -/
def Port.refreshLines (x : Port) : Port :=
  { x with lines :=
    { rts := if x.profile.rtsControl = .auto then x.autoLines.rts else x.lines.rts
      dtr := if x.profile.dtrControl = .auto then x.autoLines.dtr else x.lines.dtr
      aux := if x.profile.auxControl = .auto then x.autoLines.aux else x.lines.aux } }

/-- The levels of the AUX output (R168): ASSERT drives the active level of the entry in effect, DEASSERT the other one, and
RELEASE drives none. -/
def AuxLevel.other : AuxLevel → AuxLevel
  | .high => .low
  | .low => .high

/-- AUX at its pin (R168). DESIGN CHOICE (log 48): an apply that changes the active level during an AUX_PULSE moves the pin at
once, as R168 says of every live AUX value, and not at the signal's end, as R51 says of the line a signal drives. -/
def Port.auxPin (x : Port) : Option AuxLevel :=
  match x.lines.aux with
  | .assert => some x.profile.auxLevel
  | .deassert => some x.profile.auxLevel.other
  | .release => none

/-- RTS or DTR at its pin: asserted, deasserted, or not driven (R168). -/
def Drive.pin : Drive → Option Bool
  | .assert => some true
  | .deassert => some false
  | .release => none

/-- What TXD does (R168); a character is its bits in the order they are sent, true at mark (R23). -/
inductive TxdLine where
  | mark | space
  | character (bits : List Bool)
  deriving DecidableEq, Repr

/-- The byte of the character in the shift register (R20, R23). -/
def ShiftReg.byte : ShiftReg → Option Byte
  | .empty => none
  | .key b _ => some b
  | .flow c => some c.byte

/-- TXD is at mark while the engine is stopped, held at space by a BREAK in its SPACE phase, and otherwise carries the character
in the shift register, laid out in the port's format, with mark between characters (R21, R23, R168, R172). The format in effect is the
one the character was loaded under, since an apply waits for an empty register (R38). -/
def Port.txd (x : Port) : TxdLine :=
  if !x.running then .mark
  else if x.signal.any (fun g => g.phase == .space) then .space
  else match x.engine.shift.byte with
    | none => .mark
    | some b => .character (characterSent x.profile b)

/-- The transmit stop that holds back FIFO bytes but for a BREAK (R24, R25). -/
def Port.fifoStopped (x : Port) : Bool :=
  (x.profile.flow == .soft && x.engine.consoleStopped) || (x.profile.flow == .hard && !x.pins.cts)

/-- The pending flow character that may be sent now: any under flow SOFT, and the XON owed on leaving it (R23). -/
def Port.flowToSend (x : Port) : Option FlowChar :=
  match x.engine.pendingFlow with
  | some c => if x.profile.flow = .soft ∨ c = .xon then some c else none
  | none => none

/-- Load the transmit shift register if it is empty and no stop holds: a flow character first, then the head of the FIFO
(R23, R24). -/
def Port.load (x : Port) : Port :=
  if x.running && x.engine.shift == .empty && !x.signalIs .breakSignal then
    match x.flowToSend with
    | some c => { x with engine := { x.engine with shift := .flow c, pendingFlow := none, lastFlow := c } }
    | none =>
      match x.engine.fifo with
      | [] => x
      | (b, tag) :: rest =>
        if x.fifoStopped then x else { x with engine := { x.engine with shift := .key b tag, fifo := rest } }
  else x

/-- The transmitter is idle (R49). -/
def Port.idle (x : Port) : Bool :=
  x.engine.fifo.isEmpty && x.engine.shift == .empty && x.engine.pendingFlow == none && x.signal == none

/-- Free space of the Transmit FIFO (R22). -/
def Port.fifoSpace (x : Port) : Nat := Config.txFifoSize - x.engine.fifo.length

/-- The pending flow character that matches a pause under flow SOFT (R36). -/
def matchingFlow (pause : Pause) (lastFlow : FlowChar) : Option FlowChar :=
  match pause, lastFlow with
  | .asserted, .xon => some .xoff
  | .asserted, .xoff => none
  | .released, .xoff => some .xon
  | .released, .xon => none

/-- The pause takes a new value: flow SOFT makes the pending flow character match, flow HARD moves RTS (R36, R37). -/
def Port.withPause (x : Port) (pause : Pause) : Port :=
  Port.refreshLines { x with engine := { x.engine with
      pause, pendingFlow := if x.profile.flow = .soft then matchingFlow pause x.engine.lastFlow
                            else x.engine.pendingFlow } }

/-- The pause changes: PAUSE is set on an assert, and a flow character that became pending may be loaded (R35, R23). -/
def changePause (p : PortNo) (pause : Pause) (s : Part) : Part :=
  let s := s.modPort p (·.withPause pause)
  let s := if pause = .asserted then setCondition p .pause s else s
  s.modPort p Port.load

/-- Evaluate the pause of a port against its account (R35). -/
def evalPause (p : PortNo) (s : Part) : Part :=
  let x := s.port p
  if x.running then
    match x.engine.pause with
    | .released => if x.profile.pauseOn ≤ x.portUse then changePause p .asserted s else s
    | .asserted => if x.portUse ≤ x.profile.pauseOff then changePause p .released s else s
  else s

/-! ### Accounts (R65, R75) -/

def Port.reserve (x : Port) : Nat := x.profile.reserve

/-- Σ over ports of max(0, port_use − reserve) (R65). -/
def Part.sharedInUse (s : Part) : Nat := (s.ports.toList.map fun x => x.portUse - x.reserve).sum

/-- Σ reserve (R65). -/
def Part.sigmaReserve (s : Part) : Nat := (s.ports.toList.map Port.reserve).sum

/-- shared_pool (R65). -/
def Part.sharedPool (s : Part) : Nat := Config.cellCount - Config.tapReserve - s.sigmaReserve

/-- shared_refs_used (R75). -/
def Part.sharedRefsUsed (s : Part) : Nat := (s.queues.toList.map fun l => l.length - Config.queueReserve).sum

/-- limit(q): the session's queue limit or the tap's (R75, R118, R143). -/
def Part.queueLimit (s : Part) (q : QueueNo) : Nat :=
  match queueOwner q with
  | .inl n => (s.session n).queueLimit
  | .inr t => (s.tap t).entry.queueLimit

/-! ### Blocks and holds (R62 to R64) -/

def Part.block (s : Part) (id : Nat) : Option Block := s.blocks.find? fun b => b.id == id

def Part.modBlock (s : Part) (id : Nat) (f : Block → Block) : Part :=
  { s with blocks := s.blocks.map fun b => if b.id = id then f b else b }

/-- The cells of a block, 0 for a block that does not exist. -/
def Part.blockCells (s : Part) (id : Nat) : Nat := ((s.block id).map fun b => b.cells.length).getD 0

/-- The bytes of a block, in order (R62). -/
def Part.blockBytes (s : Part) (b : Block) : List Byte := Memory.readBlock s.mem b.cells b.length

/-- The cell total of a port's Output Chain (R110). -/
def Part.chainCells (s : Part) (p : PortNo) : Nat := ((s.port p).chain.map s.blockCells).sum

/-- Free a block (R64): its cells return to the tail of the free list, its record goes, its account falls, and for an OUTPUT
block the origin's pause is evaluated once. A fall of shared_in_use leaves a walk of the wait list due (R71). -/
def freeBlock (b : Block) (s : Part) : Part :=
  let before := s.sharedInUse
  let s := { s with blocks := s.blocks.filter (fun c => c.id != b.id), freeList := s.freeList ++ b.cells }
  match b.kind with
  | .keys => { s with tapUse := s.tapUse - b.cells.length }
  | .output =>
    let s := s.modPort b.port fun x => { x with portUse := x.portUse - b.cells.length }
    let s := { s with walkDue := s.walkDue || decide (s.sharedInUse < before) }
    evalPause b.port s

/-- Release one hold; a block whose count reaches zero is freed (R63, R64). The retries of R71 are not made here. -/
def dropHold (id : Nat) (s : Part) : Part :=
  match s.block id with
  | none => s
  | some b => if b.refCount ≤ 1 then freeBlock b s else s.modBlock id fun b => { b with refCount := b.refCount - 1 }

/-- The release of one hold would free the block. -/
def Part.lastHold (s : Part) (id : Nat) : Bool := (s.block id).any fun b => b.refCount ≤ 1

/-! ### References (R76) -/

/-- The queue accounts have room for one more entry of queue q (R76, steps 2 and 3). -/
def Part.queueHasRoom (s : Part) (q : QueueNo) : Bool :=
  decide ((s.queue q).length < Config.queueReserve)
    || (decide ((s.queue q).length < s.queueLimit q) && decide (s.sharedRefsUsed < Config.sharedRefs))

/-- A reference to the block would be admitted to queue q (R76). -/
def Part.refAdmissible (s : Part) (q : QueueNo) (id : Nat) : Bool :=
  !(s.queue q).any (fun r => r.block == id) && s.queueHasRoom q

/-- Place an admitted reference at the tail of queue q; the block gains a queue hold (R76). -/
def addRef (q : QueueNo) (id : Nat) (history : Bool) (s : Part) : Part :=
  (s.setQueue q (s.queue q ++ [{ block := id, history }])).modBlock id fun b => { b with refCount := b.refCount + 1 }

/-! ### Ownership (R120) -/

/-- Session n owns port p. -/
def Part.owns (s : Part) (n : SessionNo) (p : PortNo) : Bool :=
  (s.session n).state != .free && (s.session n).port == p && (s.session n).role == .owner

/-- The owner of a port, if it has one (R120). -/
def Part.ownerOf (s : Part) (p : PortNo) : Option SessionNo := allSessions.find? fun n => s.owns n p

/-- A HELD head becomes RETRY (R104). -/
def retryHead (p : PortNo) (s : Part) : Part :=
  s.modPort p fun x => if x.headHold = .held then { x with headHold := .retry } else x

/-- An entry of queue q was released: a HELD head of the port that the queue's session owns becomes RETRY (R77, R104). -/
def reportRelease (q : QueueNo) (s : Part) : Part :=
  match queueOwner q with
  | .inr _ => s
  | .inl n => if s.owns n (s.session n).port then retryHead (s.session n).port s else s

/-- The address of the peer that holds a session, as its entry stands (R182). -/
def Part.addressOf (s : Part) (n : SessionNo) : Address :=
  { mac := (s.peer (s.session n).peer).mac, peerId := (s.peer (s.session n).peer).peerId }

end Sys2Proof.Machine
end

