-- ==== Sys2Proof/Machine/Store.lean ====
section
/-!
DEFINITION. Block Assembly and the Cell Store's admission: placing bytes, triggers, closing blocks (R83 to R96), cell requests,
history yield, the Admission Wait List and its retries (R67 to R73), clearing queues (R77, R78), trimming chains (R111).
-/
namespace Sys2Proof.Machine

/-! ### Closing a block and the idle gap -/

/-- The length of the idle-gap timer in reference periods, under the profile in effect (R87). -/
def Port.gapLength (x : Port) : Nat := x.profile.idleGap * x.profile.charBits * (2 * x.profile.d8)

/-- Start, or start again, the idle-gap timer (R87). -/
def Port.startGap (x : Port) : Port := { x with gapTimer := some x.gapLength }

/-- Close the open block of a port, if there is one (R86). -/
def closeBlock (p : PortNo) (reason : CloseReason) (s : Part) : Part :=
  match (s.port p).openBlock with
  | none => s
  | some id =>
    (s.modBlock id fun b => { b with closeReason := some reason }).modPort p fun x =>
      { x with openBlock := none, gapTimer := none, blockQueue := x.blockQueue ++ [id] }

/-! ### Triggers -/

def actionClose : Nat := 0
def actionMark : Nat := 1
def actionNotice : Nat := 2

/-- The next match position of a trigger at position `k` on a byte, before a match returns it to 0 (R93). -/
def nextPosition (t : Trigger) (k : Nat) (byte : Byte) : Nat :=
  if byte = t.pattern.toList.getD k 0 then k + 1 else if byte = t.pattern.toList.getD 0 0 then 1 else 0

/-- The NOTICE action: the pattern record takes the match, the counter rises, PATTERN is set (R96; log 16). -/
def noticeMatch (p : PortNo) (t : TriggerNo) (offset : Word32) (s : Part) : Part :=
  setCondition p .pattern (s.modPort p fun x =>
    { x with pattern := some (t, offset), counters := { x.counters with patternMatches := x.counters.patternMatches + 1 } })

/-- The MARK action on the open block (R95). -/
def markOpenBlock (p : PortNo) (group : Nat) (s : Part) : Part :=
  match (s.port p).openBlock with
  | none => s
  | some id => s.modBlock id fun b => { b with marks := b.marks ||| BitVec.twoPow 8 group }

/-- The actions of a trigger that matched (R95, R96); the Bool gathers whether a CLOSE acted. -/
def fireTrigger (p : PortNo) (t : TriggerNo) (offset : Word32) (s : Part) : Part × Bool :=
  let tr := s.trigger t
  let s := if tr.actions.getLsbD actionMark then markOpenBlock p tr.markGroup s else s
  let s := if tr.actions.getLsbD actionNotice then noticeMatch p t offset s else s
  (s, tr.actions.getLsbD actionClose)

/-- Advance one trigger of port p on a byte (R93). -/
def advanceTrigger (p : PortNo) (byte : Byte) (offset : Word32) (acc : Part × Bool) (t : TriggerNo) : Part × Bool :=
  let s := acc.1
  let tr := s.trigger t
  if tr.valid && (s.port p).profile.triggerSet.getLsbD t.val then
    let next := nextPosition tr ((s.port p).matchPos[t]) byte
    if next = tr.length then
      let r := fireTrigger p t offset (s.modPort p fun x => { x with matchPos := x.matchPos.set t 0 })
      (r.1, acc.2 || r.2)
    else (s.modPort p fun x => { x with matchPos := x.matchPos.set t next }, acc.2)
  else acc

/-- Advance every trigger of port p on a byte, in ascending index (R93). -/
def advanceTriggers (p : PortNo) (byte : Byte) (offset : Word32) (s : Part) : Part × Bool :=
  allTriggers.foldl (advanceTrigger p byte offset) (s, false)

/-- The close reason after a byte, if the block closes (R85). -/
def closeAfterByte (trigger : Bool) (length limit : Nat) : Option CloseReason :=
  if trigger then some .trigger
  else if length = 512 then some .full
  else if length = limit then some .limit
  else none

/-- Put the held byte into the open block: it is written, takes the port's stream offset and leaves the slot (R83, steps 1
to 3). -/
def storeByte (p : PortNo) (b : Block) (byte : Byte) (s : Part) : Part :=
  let s := { s with mem := Memory.write s.mem (Memory.addressOf b.cells b.length) byte }
  let s := s.modBlock b.id fun b => { b with length := b.length + 1 }
  s.modPort p fun x => { x with streamOffset := x.streamOffset + 1, engine := { x.engine with slot := none } }

/-- Place the byte in the holding slot in the open block, which has room for it (R83). -/
def placeByte (p : PortNo) (s : Part) : Part :=
  match (s.port p).openBlock.bind s.block, (s.port p).engine.slot with
  | some b, some byte =>
    let r := advanceTriggers p byte (s.port p).streamOffset (storeByte p b byte s)
    let s := r.1
    match closeAfterByte r.2 (b.length + 1) (s.port p).profile.blockLimit with
    | some reason => closeBlock p reason s
    | none => s.modPort p fun x => if x.gapTimer = none then x.startGap else x
  | _, _ => s

/-! ### Cell admission -/

/-- A request for a cell for port p is admitted from the reserve or the shared pool (R68, steps 1 and 2). -/
def Part.cellAdmissible (s : Part) (p : PortNo) : Bool :=
  let x := s.port p
  !s.freeList.isEmpty &&
    (decide (x.portUse < x.reserve)
      || (decide (x.portUse - x.reserve < x.profile.shareLimit) && decide (s.sharedInUse < s.sharedPool)))

/-- The oldest block of the Output Chain gives up its chain hold (R69, step 2). -/
def yieldOldest (p : PortNo) (id : Nat) (s : Part) : Part :=
  let s := s.modPort p fun x =>
    { x with chain := x.chain.tail, counters := { x.counters with historyYields := x.counters.historyYields + 1 } }
  dropHold id (setCondition p .historyYield s)

/-- History yields, oldest block first, until a freed block lets the request be admitted or the chain is empty (R69). -/
def yieldHistory (p : PortNo) (chain : List Nat) (s : Part) : Part × Bool :=
  match chain with
  | [] => (s, false)
  | id :: rest =>
    let freed := s.lastHold id
    let s := yieldOldest p id s
    if freed && s.cellAdmissible p then (s, true) else yieldHistory p rest s

/-- Decide a request for a cell (R68). -/
def decideCell (p : PortNo) (s : Part) : Part × Bool :=
  if s.cellAdmissible p then (s, true) else yieldHistory p (s.port p).chain s

/-- The record of a new block made with its first cell (R84). -/
def newOutputBlock (p : PortNo) (x : Port) (cell : Nat) : Block :=
  { id := cell, kind := .output, port := p, epoch := x.epoch, start := x.streamOffset, length := 0, cells := [cell],
    marks := 0, closeReason := none, sender := none, refCount := 1 }

/-- Take the head of the free list for port p: it makes a new open block, or is added to the open block's cells (R62, R67). -/
def takeCell (p : PortNo) (s : Part) : Part :=
  match s.freeList with
  | [] => s
  | c :: rest =>
    let s := { s with freeList := rest }
    match (s.port p).openBlock.bind s.block with
    | none => { s with blocks := s.blocks ++ [newOutputBlock p (s.port p) c] }.modPort p fun x => { x with openBlock := some c }
    | some b => s.modBlock b.id fun b => { b with cells := b.cells ++ [c] }

/-- An admitted request: the cell is taken, port_use rises by one, the pause is evaluated and the byte is placed (R67). -/
def admitCell (p : PortNo) (s : Part) : Part :=
  placeByte p (evalPause p ((takeCell p s).modPort p fun x => { x with portUse := x.portUse + 1 }))

/-- A refused request starts an admission wait (R70). -/
def startWait (p : PortNo) (s : Part) : Part :=
  let s := if s.waitList.contains p then s else { s with waitList := s.waitList ++ [p] }
  s.modPort p fun x => { x with counters := { x.counters with admissionWaits := x.counters.admissionWaits + 1 } }

/-- Ask for a cell for the byte in port p's holding slot; the decision is one event of the port (R67, R179). -/
def requestCell (p : PortNo) (s : Part) : Part :=
  inTableOrder p (fun s =>
    let r := decideCell p s
    if r.2 then admitCell p r.1 else startWait p r.1) s

/-- Retry the request of a waiting port, one event of the port; admitted, it leaves the wait list; refused, it keeps its place
(R71, R179). -/
def retryPort (p : PortNo) (s : Part) : Part :=
  if s.waitList.contains p then
    inTableOrder p (fun s =>
      let r := decideCell p s
      if r.2 then admitCell p { r.1 with waitList := r.1.waitList.filter (· != p) } else r.1) s
  else s

/-- Walk the wait list from its oldest entry to its newest, each port on it retried once (R71). -/
def walkOnce (s : Part) : Part :=
  s.waitList.foldl (fun s p => retryPort p s) { s with walkDue := false }

/-- Walk until no fall of shared_in_use is unanswered; `n` bounds the walks. -/
def walks (n : Nat) (s : Part) : Part :=
  match n with
  | 0 => s
  | k + 1 => if s.walkDue then walks k (walkOnce s) else s

/-- Every walk after the first answers a yield, so the blocks of all chains bound the walks (log 28). -/
def settleWalks (s : Part) : Part := walks ((s.ports.toList.map fun x => x.chain.length).sum + 1) s

/-- Release a hold and make the retries its freeing brings, for a block of either kind: the origin port first, then the walk
(R62, R64, R71). -/
def releaseHold (id : Nat) (s : Part) : Part :=
  match s.block id with
  | none => s
  | some b =>
    let freed := s.lastHold id
    let s := dropHold id s
    if freed then settleWalks (retryPort b.port s) else s

/-- A byte enters the empty holding slot: it is placed at once when the current cell has room, and otherwise asks for a cell
(R34, R83). -/
def offerHeldByte (p : PortNo) (s : Part) : Part :=
  match (s.port p).openBlock.bind s.block with
  | some b => if b.length % Config.cellSize = 0 then settleWalks (requestCell p s) else placeByte p s
  | none => settleWalks (requestCell p s)

/-! ### Queues and chains -/

/-- Release the oldest entry of queue q (R77). -/
def releaseOldest (q : QueueNo) (r : Ref) (s : Part) : Part :=
  reportRelease q (releaseHold r.block (s.setQueue q (s.queue q).tail))

/-- Clear queue q, oldest entry first (R77). -/
def clearQueue (q : QueueNo) (s : Part) : Part := (s.queue q).foldl (fun s r => releaseOldest q r s) s

/-- Trim the Output Chain of a port to its history limit; `n` bounds the blocks that leave (R111). -/
def trimLoop (p : PortNo) (n : Nat) (s : Part) : Part :=
  match n, (s.port p).chain with
  | k + 1, id :: rest =>
    if (s.port p).profile.historyLimit < s.chainCells p then
      trimLoop p k (releaseHold id (s.modPort p fun x => { x with chain := rest }))
    else s
  | _, _ => s

def trimChain (p : PortNo) (s : Part) : Part := trimLoop p (s.port p).chain.length s

end Sys2Proof.Machine
end

