-- ==== Sys2Proof/Machine/SessionOps.lean ====
section
/-!
DEFINITION. Shared operations on sessions and taps: notices to a session's peer, demotion (R130), session end (R140, R141),
queue limits (R78), disabling a tap (R147), and what follows from a change of a peer's entry (R10 to R12).
-/
namespace Sys2Proof.Machine

/-! ### Notices about sessions -/

/-- A SESSION_EVENT notice (R182). -/
def sessionEvent (n : SessionNo) (x : Session) (reason : EventReason) (taker : Option SessionNo) (dst : Address) : Notice :=
  { dst, lost := false, marks := none, body := .sessionEvent n x.tag x.port reason taker }

/-- The notice of an end reason, if the reason sends one (R141). -/
def EndReason.event : EndReason → Option EventReason
  | .detached => none
  | .timeout => some .timeout
  | .portDisabled => some .portDisabled
  | .portReset => some .portReset
  | .peerRemoved => some .peerRemoved
  | .restart => none

/-- The data of a delayed DETACH reply: end reason, blocks discarded, final digests and counters (R141). -/
def detachData (reason : EndReason) (discarded : Nat) (x : Session) : List Byte :=
  bytesOf 1 reason.code ++ bytesOf 2 discarded ++ bytesOf 2 x.keysDigest.toNat ++ bytesOf 2 x.outputDigest.toNat
    ++ bytesOf 4 x.gapBytes.toNat ++ bytesOf 4 x.keyBytes.toNat

/-! ### Ownership changes -/

/-- A port's owner changed: the Fan-out Unit makes a HELD head RETRY (R120, R104). -/
def ownerChanged (p : PortNo) (s : Part) : Part := retryHead p s

/-- Demote an owner: role, notice, owner change (R130). -/
def demote (n : SessionNo) (reason : EventReason) (taker : Option SessionNo) (s : Part) : Part :=
  let s := s.modSession n fun x => { x with role := .observer }
  let s := offerNotice (sessionEvent n (s.session n) reason taker (s.addressOf n)) s
  ownerChanged (s.session n).port s

/-! ### Session end -/

/-- Set the tag of each of session n's bytes in the FIFO and the shift register to none (R28). -/
def Port.untag (x : Port) (n : SessionNo) : Port :=
  { x with engine := { x.engine with
      fifo := x.engine.fifo.map fun e => if e.2 = some n then (e.1, none) else e
      shift := match x.engine.shift with
        | .key b tag => if tag = some n then .key b none else .key b tag
        | .empty => .empty
        | .flow c => .flow c } }

/-- The frame in transmission no longer names session n (R161). -/
def TxKind.unname (k : TxKind) (n : SessionNo) : TxKind :=
  match k with
  | .output b q m => .output b q (if m = some n then none else m)
  | .tapcopy b q => .tapcopy b q
  | .reply k => .reply k
  | .notice m q => .notice m q

/-- The ATTENTION notice of session n is in transmission, or was cut off in it (R136). -/
def Part.attentionBegun (s : Part) (n : SessionNo) : Bool :=
  match s.transmission with
  | some ⟨.notice m _, _, _⟩ => m.marks == some n
  | some _ => false
  | none => false

/-- A notice no longer stands for session n's pending flag. -/
def Notice.unmark (m : Notice) (n : SessionNo) : Notice := if m.marks = some n then { m with marks := none } else m

/-- A notice in transmission no longer stands for session n's pending flag. -/
def TxKind.unmark (k : TxKind) (n : SessionNo) : TxKind :=
  match k with
  | .notice m q => .notice (m.unmark n) q
  | .output b q m => .output b q m
  | .tapcopy b q => .tapcopy b q
  | .reply k => .reply k

/-- Remove the ATTENTION notice of session n's pending flag from the Notice Queue; one whose transmission has begun is not
recalled (R136). A lost indication that it carried returns to the flag (R181), and an arbiter that had chosen it chooses
afresh (log 33). -/
def withdrawAttention (n : SessionNo) (s : Part) : Part :=
  if s.attentionBegun n then
    { s with notices := s.notices.map fun m => m.unmark n
             transmission := s.transmission.map fun t => { t with what := t.what.unmark n } }
  else
    { s with notices := s.notices.filter fun m => m.marks != some n
             noticesLost := s.noticesLost || s.notices.any fun m => m.marks == some n && m.lost
             chosen := if s.notices.head?.any fun m => m.marks == some n then
                         (if s.chosen = some .notice then none else s.chosen) else s.chosen }

/-- Offer the notice of a session end, if its reason sends one (R141). -/
def offerEndNotice (n : SessionNo) (x : Session) (reason : EndReason) (dst : Address) (s : Part) : Part :=
  match reason.event with
  | some e => offerNotice (sessionEvent n x e none dst) s
  | none => s

/-- Form the delayed DETACH reply of a session that has one reserved (R141). -/
def formDetachReply (x : Session) (reason : EndReason) (code : ResultCode) (discarded : Nat) (s : Part) : Part :=
  match x.drainSlot with
  | some k => formReply k code (detachData reason discarded x) s
  | none => s

/-- End session n, in the order of R140: queue, ownership, key bytes and the transmit record, attention, delayed reply with
the given code and count, entry, and then the notice of the reason, sent to `dst` (R140, R141). -/
def endSession (n : SessionNo) (reason : EndReason) (code : ResultCode) (discarded : Nat) (dst : Address) (s : Part) :
    Part :=
  let s := clearQueue (sessionQueue n) s
  let x := s.session n
  let s := if s.owns n x.port then ownerChanged x.port s else s
  let s := s.modPort x.port (·.untag n)
  let s := { s with transmission := s.transmission.map fun t => { t with what := t.what.unname n } }
  let s := if x.attention then withdrawAttention n s else s
  let s := formDetachReply x reason code discarded s
  let s := s.setSession n .free
  offerEndNotice n x reason dst s

/-- End session n with a delayed reply of ABORTED, its notice going to its peer's entry as it stands (R141). -/
def abortSession (reason : EndReason) (s : Part) (n : SessionNo) : Part :=
  endSession n reason .aborted 0 (s.addressOf n) s

/-- The sessions on a port, in ascending number (R142). -/
def Part.sessionsOn (s : Part) (p : PortNo) : List SessionNo :=
  allSessions.filter fun n => (s.session n).state != .free && (s.session n).port == p

/-- The sessions an entry holds, in ascending number (R119). -/
def Part.sessionsOf (s : Part) (i : PeerNo) : List SessionNo :=
  allSessions.filter fun n => (s.session n).state != .free && (s.session n).peer == i

/-! ### Taps -/

/-- Count a dropped copy of an output block of `length` bytes (R154). -/
def TapCounters.dropOutput (c : TapCounters) (length : Nat) : TapCounters :=
  { c with copiesDropped := c.copiesDropped + 1, outputGap := c.outputGap + BitVec.ofNat 32 length }

/-- Count a dropped copy of a key submission of `length` bytes (R154). -/
def TapCounters.dropKeys (c : TapCounters) (length : Nat) : TapCounters :=
  { c with copiesDropped := c.copiesDropped + 1, keyGap := c.keyGap + BitVec.ofNat 32 length }

/-- Count an entry released by a cut of the tap's queue limit (R154). -/
def countCut (t : TapNo) (id : Nat) (s : Part) : Part :=
  match s.block id with
  | none => s
  | some b => s.modTap t fun x =>
    { x with counters := match b.kind with
        | .output => x.counters.dropOutput b.length
        | .keys => x.counters.dropKeys b.length }

/-- Release the newest entries of tap t's queue, newest first, until its length is the limit; `n` bounds them (R78). -/
def cutTapQueue (t : TapNo) (limit n : Nat) (s : Part) : Part :=
  match n, (s.queue (tapQueue t)).getLast? with
  | k + 1, some r =>
    if limit < (s.queue (tapQueue t)).length then
      let s := countCut t r.block s
      let s := s.setQueue (tapQueue t) (s.queue (tapQueue t)).dropLast
      cutTapQueue t limit k (reportRelease (tapQueue t) (releaseHold r.block s))
    else s
  | _, _ => s

/-- Disable a tap: its enabled field becomes no and its queue is cleared (R147). -/
def disableTap (t : TapNo) (s : Part) : Part :=
  clearQueue (tapQueue t) (s.modTap t fun x => { x with entry := { x.entry with enabled := false } })

/-- Disable the enabled taps that name entry i as collector (R10, R11). DESIGN CHOICE (log 46): in ascending tap number; the rules
name no order. -/
def disableTapsOf (i : PeerNo) (s : Part) : Part :=
  allTaps.foldl (fun s t =>
    if (s.tap t).entry.enabled && (s.tap t).entry.collector == i.val then disableTap t s else s) s

/-- The supervisor setting becomes none if it names entry i (R10, R11). -/
def dropSupervisor (i : PeerNo) (s : Part) : Part :=
  if s.system.supervisor = some i then { s with system := { s.system with supervisor := none } } else s

/-! ### Changes of a peer's entry -/

/-- End the sessions of entry i whose port `gone` says has left its mask (R11). -/
def endSessionsLeft (i : PeerNo) (gone : PortNo → Bool) (s : Part) : Part :=
  (s.sessionsOf i).foldl (fun s n => if gone (s.session n).port then abortSession .peerRemoved s n else s) s

/-- Demote the sessions of entry i that own their ports (R11). DESIGN CHOICE (log 50): in ascending session number, and so their
DEMOTED notices are queued in that order; R11 and R130 name none, and R142 orders ends only. -/
def demoteOwners (i : PeerNo) (s : Part) : Part :=
  (s.sessionsOf i).foldl (fun s n => if s.owns n (s.session n).port then demote n .demoted none s else s) s

/-- The effects of an identity change, with the notices addressed to the old identity (R10). DESIGN CHOICE (log 56): R10 names no order
among its effects; the entry is stored first, then the sessions end, then the taps are disabled, and the supervisor setting goes
last. -/
def identityChanged (i : PeerNo) (old : Peer) (s : Part) : Part :=
  let s := (s.sessionsOf i).foldl
    (fun s n => endSession n .peerRemoved .aborted 0 { mac := old.mac, peerId := old.peerId } s) s
  dropSupervisor i (disableTapsOf i s)

/-- The effects of lowered rights on entry i (R11). DESIGN CHOICE (log 56): in the order in which R11 lists them. -/
def rightsChanged (i : PeerNo) (old new : Peer) (s : Part) : Part :=
  let s := endSessionsLeft i (fun p => old.mask.getLsbD p.val && !new.mask.getLsbD p.val) s
  let s := if old.maxRole ≠ .observe ∧ new.maxRole = .observe then demoteOwners i s else s
  let s := if old.collector && !new.collector then disableTapsOf i s else s
  if old.supervisor && !new.supervisor then dropSupervisor i s else s

/-- Bring the sessions of entry i into line with its stored rights (R12). -/
def bringIntoLine (s : Part) (i : PeerNo) : Part :=
  let e := s.peer i
  if e.valid then
    let s := endSessionsLeft i (fun p => !e.mask.getLsbD p.val) s
    if e.maxRole = .observe then demoteOwners i s else s
  else s

/-- The commissioning state the latched strap and the Peer Table give (R12). -/
def Part.commissioningNow (s : Part) : Bool :=
  s.commissioningStrap && !(s.peers.toList.any fun e => e.valid && e.configure)

/-- Recompute the commissioning state; going from on to off brings every valid entry's sessions into line (R12). DESIGN CHOICE
(log 45): the sessions end entry by entry in ascending index, as R12 says, not in ascending session number over all entries, as
R142 says of a LOAD PEER. -/
def recomputeCommissioning (s : Part) : Part :=
  let was := s.commissioning
  let s := { s with commissioning := s.commissioningNow }
  if was && !s.commissioning then allPeers.foldl bringIntoLine s else s

end Sys2Proof.Machine
end

