-- ==== Sys2Proof/Machine/PortOps.lean ====
section
/-!
DEFINITION. Shared operations on a port's life: signals (R170 to R174), the engine's start and stop (R20, R21), stopping a port
(R54), the profile apply (R47 to R52), local presence (R56, R57).
-/
namespace Sys2Proof.Machine

/-! ### Signals -/

/-- The data of a SIGNAL reply: kind, duration used, elapsed time (R173, R174). -/
def Signal.data (g : Signal) : List Byte :=
  bytesOf 1 g.kind.code ++ bytesOf 2 g.duration ++ bytesOf 2 g.elapsed

/-- The record empties and the line a signal drove takes the value R169 gives; after an early end AUX takes DEASSERT, under MANUAL
too (R173, R174; log 36). DESIGN CHOICE (log 55): a DTR moved to MANUAL during its pulse keeps, at an early end into LOCAL_HOLD too, the
DEASSERT it held at the move, as R169 says of a MANUAL line, though R174 says ASSERT in LOCAL_HOLD. -/
def Port.dropSignal (x : Port) (early : Bool) : Port :=
  let lines := if early && x.signalIs .auxPulse then { x.lines with aux := .deassert } else x.lines
  Port.refreshLines { x with signal := none, lines }

/-- End a signal early, its reply ABORTED (R174). -/
def abortSignal (p : PortNo) (s : Part) : Part :=
  match (s.port p).signal with
  | none => s
  | some g => formReply g.slot .aborted g.data (s.modPort p fun x => x.dropSignal true)

/-! ### Engine and port stop -/

/-- The engine's state values of R20, with its counters kept; the port leaves the wait list (R21, R72). -/
def stopEngine (p : PortNo) (s : Part) : Part :=
  { s.modPort p fun x => { x with engine := .initial } with waitList := s.waitList.filter (· != p) }

/-- The engine starts with the values of R20 and evaluates its pause once; the lines take their running levels (R21, R169). -/
def startEngine (p : PortNo) (s : Part) : Part :=
  evalPause p (s.modPort p fun x => Port.refreshLines { x with engine := .initial })

/-- Abort the pending load of a port (R54). -/
def abortPendingLoad (p : PortNo) (s : Part) : Part :=
  match (s.port p).pendingLoad with
  | none => s
  | some l => formReply l.slot .aborted [] (s.modPort p fun x => { x with pendingLoad := none })

/-- The blocks a stopped port lets go: the open block, the Block Queue, the Output Chain (R54, R80, R112). DESIGN CHOICE (log 53): the
rules name no order inside the one action; the model takes the three in the order R54 names them and each list from its oldest block,
and so frees their cells and walks the wait list in that order. -/
def Port.ownBlocks (x : Port) : List Nat := x.openBlock.toList ++ x.blockQueue ++ x.chain

/-- Empty the port's assembly and fan-out state and release the holds it had (R82, R90, R97, R112). -/
def discardBlocks (p : PortNo) (s : Part) : Part :=
  let ids := (s.port p).ownBlocks
  let s := s.modPort p fun x =>
    { x with openBlock := none, gapTimer := none, matchPos := Vector.replicate 16 0, blockQueue := [], chain := [],
             headHold := .noHold, holdTimer := none }
  ids.foldl (fun s id => releaseHold id s) s

/-- Stop a port and release what it holds, its delayed replies in the order of R54. DESIGN CHOICE (log 44): in the one
action of R54 the engine stops before the sessions end, so that the port's own waiting byte is discarded (R72) and no block freed
by a session's end gives it a cell; R80 walks the wait list for the other ports. -/
def stopPort (p : PortNo) (reason : EndReason) (s : Part) : Part :=
  let s := stopEngine p (s.modPort p fun x => { x with portState := .disabled, reconfigTimer := none })
  let s := (s.sessionsOn p).foldl (abortSession reason) s
  let s := abortPendingLoad p (abortSignal p s)
  let s := s.modPort p fun x => { x with lines := .allDeassert }
  discardBlocks p s

/-- A stopped port starts: LOCAL_HOLD with LOCAL set if presence is asserted, ACTIVE otherwise; then its engine (R53, R55, R60). -/
def startPort (p : PortNo) (s : Part) : Part :=
  if (s.port p).presence then
    startEngine p (setCondition p .localPresence (s.modPort p fun x => { x with portState := .localHold }))
  else startEngine p (s.modPort p fun x => { x with portState := .active })

/-! ### Local presence on a running port -/

/-- Presence asserts on a running port: the owner is demoted, the FIFO is flushed, a signal is aborted, LOCAL is set and the
port is LOCAL_HOLD (R57, ACTIVE). DESIGN CHOICE (log 58): the demoted owner's SESSION_EVENT notice is offered before the PORT_CONDITION
notice of LOCAL; R57, R130 and R179 name no order between the two. -/
def enterLocalHold (p : PortNo) (s : Part) : Part :=
  let s := match s.ownerOf p with
    | some n => demote n .localPresence none s
    | none => s
  let s := s.modPort p fun x => { x with engine := { x.engine with fifo := [] }, portState := .localHold }
  setCondition p .localPresence (abortSignal p s)

/-! ### Profile store and apply -/

/-- The accounting checks of R47: the code that refuses the entry, if any. -/
def accountingRefusal (p : PortNo) (e : Profile) (s : Part) : Option ResultCode :=
  let x := s.port p
  if e.reserve = x.profile.reserve ∧ e.shareLimit = x.profile.shareLimit then none
  else if x.portUse ≠ 0 then some .inUse
  else
    let sigma := s.sigmaReserve - x.profile.reserve + e.reserve
    if sigma ≤ 2048 ∧ s.sharedInUse ≤ 4032 - sigma then none else some .badValue

/-- Store an entry on a DISABLED port (R48). -/
def storeProfile (p : PortNo) (e : Profile) (s : Part) : Part :=
  s.modPort p fun x => { x with profile := e, matchPos := Vector.replicate 16 0 }

/-- The flow character pending after an apply: the XON owed when the old flow was SOFT and XOFF was sent last, "whatever the new
flow mode", or none (R38; log 17). -/
def owedFlow (old : FlowMode) (lastFlow : FlowChar) : Option FlowChar :=
  if old = .soft ∧ lastFlow = .xoff then some .xon else none

/-- The entry becomes the one in effect, and the engine, the match positions, the head and the lines take it up
(R38, R90, R106, R169). -/
def Port.takeProfile (x : Port) (e : Profile) : Port :=
  let waits := x.headHold == .held || x.headHold == .retry
  Port.refreshLines
    { x with
      profile := e, matchPos := Vector.replicate 16 0
      engine := { x.engine with
        receiver := .waitMark, consoleStopped := false
        pendingFlow := owedFlow x.profile.flow x.engine.lastFlow }
      headHold := if waits then .noHold else x.headHold
      holdTimer := if waits then none else x.holdTimer }

/-- Under flow SOFT with the pause ASSERTED, XOFF becomes pending unless it was sent last (R38, Entering SOFT flow). -/
def Port.enterSoft (x : Port) : Port :=
  if x.profile.flow = .soft ∧ x.engine.pause = .asserted ∧ x.engine.lastFlow ≠ .xoff then
    { x with engine := { x.engine with pendingFlow := some .xoff } }
  else x

/-- The groups of an entry take effect on a running port (R52). DESIGN CHOICE (log 18): R52 gives them one moment; the model
closes the open block, takes the entry, evaluates the pause, trims the Output Chain, retries the held byte, and then lets
presence act. -/
def takeGroups (p : PortNo) (e : Profile) (s : Part) : Part :=
  let s := (closeBlock p .portEvent s).modPort p fun x => x.takeProfile e
  let s := (evalPause p s).modPort p Port.enterSoft
  let s := settleWalks (retryPort p (trimChain p s))
  if (s.port p).presence && (s.port p).portState != .localHold then enterLocalHold p s else s

/-- Apply an entry to a running port, one event of the port (R52, R179; log 18). -/
def applyProfile (p : PortNo) (e : Profile) (s : Part) : Part := inTableOrder p (takeGroups p e) s

/-- The reply data of a carried-out profile load: the entry, its derived fields, and for FLUSHED the bytes discarded (R46). -/
def profileLoadData (e : Profile) (flushed : Option Nat) : List Byte :=
  e.bytes ++ e.derivedBytes ++ (flushed.map (bytesOf 2)).getD []

/-- The result of a carried-out profile load (R43, R50, R51). -/
def loadResult (adjusted : Bool) (flushed : Option Nat) : ResultCode :=
  if flushed.isSome then .flushed else if adjusted then .adjusted else .ok

/-- The pending load of a port comes to its moment: the checks of R47 again, then the apply or the refusal, and the reply. A
port in RECONFIG returns to ACTIVE, one in LOCAL_HOLD stays (R50, R51, R57; log 18). -/
def finishLoad (p : PortNo) (s : Part) : Part :=
  match (s.port p).pendingLoad with
  | none => s
  | some l =>
    let s := s.modPort p fun x =>
      { x with pendingLoad := none, reconfigTimer := none,
               portState := if x.portState = .reconfig then .active else x.portState }
    let s := match accountingRefusal p l.entry s with
      | some code => formReply l.slot code [] s
      | none => formReply l.slot (loadResult l.adjusted l.flushed) (profileLoadData l.entry l.flushed) (applyProfile p l.entry s)
    s.modPort p Port.load

/-- The load of a port in RECONFIG applies when its transmitter is idle and its limit has not expired (R49, R50). -/
def reconfigIdle (p : PortNo) (s : Part) : Part :=
  if (s.port p).portState = .reconfig ∧ (s.port p).idle ∧ (s.port p).pendingLoad.any (·.flushed.isNone) then finishLoad p s
  else s

/-- A load that a flush has passed applies when the shift register is empty (R51, R57). -/
def finishFlushed (p : PortNo) (s : Part) : Part :=
  if (s.port p).engine.shift = .empty ∧ (s.port p).pendingLoad.any (·.flushed.isSome) then finishLoad p s else s

/-- The pending load becomes one that waits for the last character, with the number of bytes flushed; a load whose limit has
expired keeps its own count (R51, R57). -/
def Port.flushLoad (x : Port) (count : Nat) : Port :=
  { x with reconfigTimer := none
           pendingLoad := x.pendingLoad.map fun l => { l with flushed := some (l.flushed.getD count) } }

/-- Presence asserts on a port in RECONFIG: what it brings on an ACTIVE port, and the load waits for the last character (R57). -/
def holdReconfig (p : PortNo) (s : Part) : Part :=
  let count := (s.port p).engine.fifo.length
  (enterLocalHold p s).modPort p fun x => x.flushLoad count

/-- Presence asserts on a port (R57); a load that need not wait applies in the same event (R179). -/
def presenceAsserts (p : PortNo) (s : Part) : Part :=
  match (s.port p).portState with
  | .disabled => s
  | .localHold => setCondition p .localPresence s
  | .active => (enterLocalHold p s).modPort p Port.load
  | .reconfig =>
    (if (s.port p).engine.shift = .empty then inTableOrder p (fun s => finishFlushed p (holdReconfig p s)) s
     else holdReconfig p s).modPort p Port.load

/-- A signal reaches the end of its last phase: the line returns, the reply is formed, the stop lifts, and a load that waited
for an idle transmitter applies (R173). -/
def endSignal (p : PortNo) (s : Part) : Part :=
  match (s.port p).signal with
  | none => s
  | some g =>
    let s := formReply g.slot (if g.clamped then .adjusted else .ok) { g with elapsed := g.duration }.data
      (s.modPort p fun x => x.dropSignal false)
    reconfigIdle p (s.modPort p Port.load)

end Sys2Proof.Machine
end

