-- ==== Sys2Proof/Machine/Operands.lean ====
section
/-!
DEFINITION. The Request Decoder: the rows of the table that are requests, what the Decoder checks of each before its own rule
(R4 to R7, R12), and the fields of the bodies (R189).
-/
namespace Sys2Proof.Machine

/-! ### The rows -/

/-- The right the Decoder checks for a kind (R5). -/
inductive FixedRight where
  | noneNeeded
  | signalRight
  | configureRight
  /-- The configure right, or a session named (SNAPSHOT). -/
  | configureOrSession
  deriving DecidableEq, Repr

/-- How a kind uses the session number field (R5). -/
inductive SessionUse where
  | ignored | required | optional
  deriving DecidableEq, Repr

/-- Where a row's sub-kind stands in the body, its code, and how many codes the kind defines (R5, R189). -/
structure SubKind where
  position : Nat
  code : Nat
  defined : Nat
  deriving DecidableEq, Repr

/-- The lengths a body may have (R189). -/
inductive BodyLength where
  | exactly (n : Nat)
  | between (lo hi : Nat)
  /-- A count in the first byte, then that many items of the given size. -/
  | counted (size : Nat)
  deriving DecidableEq, Repr

/-- What the Decoder needs to know of a request row. -/
structure RequestRow where
  kind : Nat
  sub : Option SubKind
  length : BodyLength
  right : FixedRight
  session : SessionUse
  /-- The body must be a CLEAR set within the ten conditions (R5). -/
  clearSet : Bool
  deriving DecidableEq, Repr

/-- A request of the given kind with the commonest settings. -/
def simpleRow (kind : Nat) (length : BodyLength) (right : FixedRight) (session : SessionUse) : RequestRow :=
  { kind, sub := none, length, right, session, clearSet := false }

def subRow (kind : Nat) (sub : SubKind) (length : BodyLength) (right : FixedRight) (session : SessionUse) : RequestRow :=
  { kind, sub := some sub, length, right, session, clearSet := false }

/-- Kinds 0x01 to 0x15 are request kinds (R187). -/
def knownKind (k : Nat) : Bool := decide (1 ≤ k ∧ k ≤ 0x15)

def attachRow : RequestRow := simpleRow 0x02 (.exactly 9) .noneNeeded .ignored
def detachRow (mode : Nat) : RequestRow := subRow 0x03 ⟨0, mode, 2⟩ (.exactly 1) .noneNeeded .required
def keysRow : RequestRow := simpleRow 0x04 (.between 1 512) .noneNeeded .required
def takeRow : RequestRow := simpleRow 0x05 (.exactly 0) .noneNeeded .required
def yieldRow : RequestRow := simpleRow 0x06 (.exactly 0) .noneNeeded .required
def historyRow : RequestRow := simpleRow 0x07 (.exactly 4) .noneNeeded .required
def digestResetRow : RequestRow := simpleRow 0x08 (.exactly 0) .noneNeeded .required
def attentionRow : RequestRow := simpleRow 0x09 (.exactly 1) .noneNeeded .required
def signalRow (kind : Nat) : RequestRow := subRow 0x0A ⟨0, kind, 3⟩ (.exactly 3) .signalRight .required
def stageRow : RequestRow := simpleRow 0x0B (.counted 3) .noneNeeded .ignored
def applyRow : RequestRow := simpleRow 0x0C (.exactly 8) .noneNeeded .ignored
def snapshotRow : RequestRow := simpleRow 0x0D (.exactly 0) .configureOrSession .optional
def portControlRow (action : Nat) : RequestRow := subRow 0x0E ⟨1, action, 3⟩ (.exactly 2) .configureRight .ignored
def clearRow : RequestRow :=
  { kind := 0x0F, sub := none, length := .exactly 3, right := .configureRight, session := .ignored, clearSet := true }
def resumeRow : RequestRow := simpleRow 0x10 (.exactly 1) .noneNeeded .ignored
def loadRow (target size : Nat) : RequestRow :=
  subRow 0x11 ⟨0, target, 5⟩ (.exactly (2 + size)) .configureRight .ignored
def readRow (target : Nat) : RequestRow := subRow 0x12 ⟨0, target, 5⟩ (.exactly 2) .noneNeeded .ignored
def statusRow (target : Nat) (session : SessionUse) : RequestRow :=
  subRow 0x13 ⟨0, target, 3⟩ (.exactly 2) .noneNeeded session
def saveRow : RequestRow := simpleRow 0x14 (.exactly 0) .configureRight .ignored
def restartRow : RequestRow := simpleRow 0x15 (.exactly 0) .configureRight .ignored

/-- The sub-kind field of a body, absent when the body is too short to hold it. -/
def SubKind.field (k : SubKind) (body : List Byte) : Option Nat := (body[k.position]?).map BitVec.toNat

/-- The frame is of this row: its kind is the row's, and its sub-kind field is the row's, names no defined sub-kind, or is
absent (such a frame is answered BAD_FORMAT by whichever row of its kind takes it; log 14). -/
def RequestRow.takes (r : RequestRow) (f : RelayFrame) : Bool :=
  f.kind.toNat == r.kind &&
    match r.sub with
    | none => true
    | some k =>
      match k.field f.body with
      | none => true
      | some c => c == k.code || decide (k.defined ≤ c)

/-- The body has a length its kind allows (R5, R189). -/
def BodyLength.fits (l : BodyLength) (body : List Byte) : Bool :=
  match l with
  | .exactly n => body.length == n
  | .between lo hi => decide (lo ≤ body.length ∧ body.length ≤ hi)
  | .counted size =>
    match body with
    | [] => false
    | c :: rest => rest.length == c.toNat * size

/-- The kind and body check of R5 for a frame of the row. -/
def RequestRow.fits (r : RequestRow) (f : RelayFrame) : Bool :=
  r.length.fits f.body
    && (match r.sub with | none => true | some k => k.field f.body == some k.code)
    && (!r.clearSet || decide (numAt f.body 1 2 < 2 ^ 10))
    && !(r.session == .required && f.session == 0xFF)

/-! ### A request under its peer's rights -/

/-- A request the Decoder has taken: its slot, header and body, the Peer Table entry it was dispatched under, and the rights
it was dispatched with (R6, R12). -/
structure Request where
  slot : SlotNo
  header : ReqHeader
  body : List Byte
  peer : Option PeerNo
  mask : BitVec 48
  maxRole : MaxRole
  signalRight : SignalRight
  configure : Bool
  deriving DecidableEq, Repr

def RelayFrame.header (f : RelayFrame) : ReqHeader :=
  { source := f.source, kind := f.kind, peerId := f.peerId, tag := f.tag, session := f.session }

/-- The session the header names; it is one that exists and is the peer's once the session check has passed. -/
def Request.session (c : Request) : SessionNo := Fin.ofNat 64 c.header.session.toNat

def Request.byte (c : Request) (k : Nat) : Nat := numAt c.body k 1

/-- The port in the peer's mask. -/
def Request.mayUse (c : Request) (p : PortNo) : Bool := c.mask.getLsbD p.val
/-- The OWN right on a port (R8). -/
def Request.mayOwn (c : Request) (p : PortNo) : Bool := c.mayUse p && c.maxRole != .observe
/-- The TAKE right on a port (R8). -/
def Request.mayTake (c : Request) (p : PortNo) : Bool := c.mayUse p && c.maxRole == .take

/-- The valid entry whose MAC address and peer id a frame has (R6). -/
def Part.matchPeer (s : Part) (f : RelayFrame) : Option PeerNo :=
  allPeers.find? fun i => (s.peer i).valid && (s.peer i).mac == f.source && (s.peer i).peerId == f.peerId

/-- A request with every right: what commissioning grants (R12). -/
def fullRights (f : RelayFrame) (k : SlotNo) (peer : Option PeerNo) : Request :=
  { slot := k, header := f.header, body := f.body, peer, mask := BitVec.allOnes 48, maxRole := .take,
    signalRight := .all, configure := true }

/-- A request with the rights of the entry it matched (R6). -/
def entryRights (f : RelayFrame) (k : SlotNo) (i : PeerNo) (e : Peer) : Request :=
  { slot := k, header := f.header, body := f.body, peer := some i, mask := e.mask, maxRole := e.maxRole,
    signalRight := e.signalRight, configure := e.configure }

/-- A request with no peer and no right: IDENTIFY, which is not matched (R6, R13). -/
def noRights (f : RelayFrame) (k : SlotNo) : Request :=
  { slot := k, header := f.header, body := f.body, peer := none, mask := 0, maxRole := .observe,
    signalRight := .noSignal, configure := false }

/-- Peer matching: the request as dispatched, or none for a frame that is discarded (R6, R12). -/
def Part.openRequest (s : Part) (f : RelayFrame) (k : SlotNo) : Option Request :=
  match s.matchPeer f with
  | some i => some (if s.commissioning then fullRights f k (some i) else entryRights f k i (s.peer i))
  | none => if s.commissioning then some (fullRights f k none) else none

/-- The fixed-rights check (R7). -/
def Request.hasRight (c : Request) (r : FixedRight) : Bool :=
  match r with
  | .noneNeeded => true
  | .signalRight => c.signalRight != .noSignal
  | .configureRight => c.configure
  | .configureOrSession => c.configure || c.header.session != 0xFF

/-- The request names a session that exists and is held by its peer (R7). -/
def Part.sessionNamed (s : Part) (c : Request) : Bool :=
  decide (c.header.session.toNat < 64) && (s.session c.session).state != .free
    && c.peer == some (s.session c.session).peer

/-- The session check applies to this request (R5, R7). -/
def sessionChecked (u : SessionUse) (c : Request) : Bool :=
  match u with
  | .ignored => false
  | .required => true
  | .optional => c.header.session != 0xFF

/-- The Decoder's refusal of a matched request, if any: kind and body, fixed right, session (R4). -/
def Part.decoderRefusal (s : Part) (r : RequestRow) (f : RelayFrame) (c : Request) : Option ResultCode :=
  if !r.fits f then some .badFormat
  else if !c.hasRight r.right then some .noRight
  else if sessionChecked r.session c && !s.sessionNamed c then some .noSession
  else none

/-- An ACTIVE session with an idle timeout has its idle timer restarted (R7, R123). -/
def Session.touch (x : Session) : Session :=
  if x.state = .active ∧ x.idleTimeout ≠ 0 then { x with idleTimer := some (x.idleTimeout * 1000) } else x

/-- The session check passed: the named session's idle timer restarts (R7). -/
def touchNamed (u : SessionUse) (c : Request) (s : Part) : Part :=
  if sessionChecked u c then s.modSession c.session Session.touch else s

/-- Answer a request at once (R14). -/
def answer (c : Request) (code : ResultCode) (data : List Byte) (s : Part) : Part := formReply c.slot code data s

/-! ### Taking a frame -/

/-- The head frame of the Receive FIFO with a slot for its reply, if the Decoder may take it (R4). -/
def State.nextFrame (s : State) : Option (RelayFrame × SlotNo) :=
  match s.uplink.rxFifo, s.part.freeSlot with
  | f :: _, some k => some (f, k)
  | _, _ => none

/-- The frame leaves the Receive FIFO and claims its slot (R4). -/
def State.claim (s : State) (f : RelayFrame) (k : SlotNo) : State :=
  { s with uplink := { s.uplink with rxFifo := s.uplink.rxFifo.tail }, part := s.part.setSlot k (.reserved f.header) }

/-- Peer matching dropped the frame: it is counted, and it never used its slot (R4, R6). -/
def State.dropUnknown (s : State) : State :=
  { s with uplink := { s.uplink with rxFifo := s.uplink.rxFifo.tail, unknownSource := s.uplink.unknownSource + 1 } }

/-- The Decoder takes the head frame if it is of the row: it is matched and checked, and a request that passes is carried out
by `carry` (R4). A head frame of another row, or none, or no free slot, leaves everything as it is (log 3). -/
def takeRequest (r : RequestRow) (carry : Request → State → State) (s : State) : State :=
  match s.nextFrame with
  | none => s
  | some (f, k) =>
    if r.takes f then
      match s.part.openRequest f k with
      | none => s.dropUnknown
      | some c =>
        let s := s.claim f k
        match s.part.decoderRefusal r f c with
        | some code => { s with part := answer c code [] s.part }
        | none => carry c { s with part := touchNamed r.session c s.part }
    else s

/-- A request whose effects stay behind the Uplink Port. -/
def takePartRequest (r : RequestRow) (carry : Request → Part → Part) (s : State) : State :=
  takeRequest r (fun c s => { s with part := carry c s.part }) s

/-! ### The uplink's readiness -/

/-- A weight of a delivery queue: its session's or its tap's (R155). -/
def Part.queueWeight (s : Part) (q : QueueNo) : Nat :=
  match queueOwner q with
  | .inl n => (s.session n).weight
  | .inr t => (s.tap t).entry.weight

/-- The uplink is free and the link is up (R164). -/
def Part.uplinkFree (s : Part) (link : Link) : Bool := link == .up && s.transmission == none

/-- The control kind the arbiter takes when it chooses: the kind not taken last when both wait (R164). -/
def Part.controlWaiting (s : Part) : Option ControlKind :=
  match s.formed.isEmpty, s.notices.isEmpty with
  | true, true => none
  | false, true => some .reply
  | true, false => some .notice
  | false, false => some (if s.lastControl = .reply then .notice else .reply)

/-- A choice stands until its frame begins; the arbiter chooses when the uplink is free (R164). -/
def chooseControl (link : Link) (s : Part) : Part :=
  if s.chosen = none ∧ s.uplinkFree link then { s with chosen := s.controlWaiting } else s

/-- The uplink is ready for a data frame (R156). -/
def Part.dataReady (s : Part) (link : Link) : Bool :=
  s.uplinkFree link && s.formed.isEmpty && s.notices.isEmpty

/-- The delivery queues in ascending order from the one after q, q itself last (R156). -/
def queuesAfter (q : QueueNo) : List QueueNo := (List.range 68).map fun k => Fin.ofNat 68 (q.val + 1 + k)

/-- Name the candidate when the uplink is ready for data: stay on the visit, or move to the next queue that is not empty and
start its visit; with every queue empty the visit has ended (R156, R157). -/
def nameCandidate (link : Link) (s : Part) : Part :=
  if s.dataReady link then
    if 0 < s.framesLeft ∧ s.queue s.curQueue ≠ [] then s
    else
      match (queuesAfter s.curQueue).find? fun q => !(s.queue q).isEmpty with
      | some q => { s with curQueue := q, framesLeft := s.queueWeight q }
      | none => { s with framesLeft := 0 }
  else s

/-- What the arbiter and the Scheduler do at the end of every command (log 11). -/
def settle (s : State) : State :=
  { s with part := nameCandidate s.uplink.link (chooseControl s.uplink.link s.part) }

/-- The outcome of a command: its effect, and then the arbiter's choice and the Scheduler's naming. -/
def done (s : State) : Host.Outcome State Fault Refusal := .next (settle s)

/-- The outcome of a command whose effects stay behind the Uplink Port. -/
def donePart (f : Part → Part) (s : State) : Host.Outcome State Fault Refusal := done { s with part := f s.part }

end Sys2Proof.Machine
end

