-- ==== Sys2Proof/Machine/Taps.lean ====
section
/-!
DEFINITION. Which tap takes a copy (R148 to R150), and the key copy made from the tap reserve (R74, R152).
-/
namespace Sys2Proof.Machine

/-- The tap is enabled, copies this kind of traffic, and has the port in its mask (R148, R149). -/
def TapEntry.covers (e : TapEntry) (kind : TapDirection) (p : PortNo) : Bool :=
  e.enabled && (e.direction == kind || e.direction == .both) && e.portMask.getLsbD p.val

/-- Tap t matches an OUTPUT block at a serve (R148). -/
def Part.tapMatchesOutput (s : Part) (t : TapNo) (b : Block) : Bool :=
  let e := (s.tap t).entry
  e.covers .output b.port
    && (match e.peerFilter with
        | none => true
        | some i => (s.sessionsOn b.port).any fun n => (s.session n).peer.val == i)
    && (e.markedOnly == .no || decide (b.marks &&& e.groupMask ≠ 0))

/-- Tap t matches a key submission of session n to port p (R149). -/
def Part.tapMatchesKeys (s : Part) (t : TapNo) (p : PortNo) (n : SessionNo) : Bool :=
  let e := (s.tap t).entry
  e.covers .keys p && (match e.peerFilter with | none => true | some i => (s.session n).peer.val == i)

/-- The highest-numbered tap that matches (R150). -/
def highestTap (f : TapNo → Bool) : Option TapNo := allTaps.reverse.find? f

/-- The cells a submission of `length` bytes needs (R74). -/
def cellsFor (length : Nat) : Nat := (length + 63) / 64

/-- A KEYS block of `length` bytes is admitted: the tap reserve and the queue accounts have room (R74). -/
def Part.keyCopyAdmissible (s : Part) (t : TapNo) (length : Nat) : Bool :=
  decide (s.tapUse + cellsFor length ≤ Config.tapReserve) && s.queueHasRoom (tapQueue t)
    && decide (cellsFor length ≤ s.freeList.length)

/-- The record of a key copy (R62, R74). -/
def keysBlock (p : PortNo) (epoch : Byte) (start : Word32) (n : SessionNo) (length : Nat) (cells : List Nat) : Block :=
  { id := cells.headD 0, kind := .keys, port := p, epoch, start, length, cells, marks := 0, closeReason := none,
    sender := some n, refCount := 0 }

/-- Make the admitted key copy: cells, bytes, record, and its one reference (R74, R152). -/
def makeKeyCopy (t : TapNo) (p : PortNo) (n : SessionNo) (start : Word32) (bytes : List Byte) (s : Part) : Part :=
  let cells := s.freeList.take (cellsFor bytes.length)
  let b := keysBlock p (s.port p).epoch start n bytes.length cells
  let s := { s with freeList := s.freeList.drop (cellsFor bytes.length), blocks := s.blocks ++ [b]
                    mem := Memory.writeBlock s.mem cells 0 bytes, tapUse := s.tapUse + cellsFor bytes.length }
  (addRef (tapQueue t) b.id false s).modTap t fun x =>
    { x with counters := { x.counters with copiesQueued := x.counters.copiesQueued + 1 } }

/-- Offer an accepted submission to the Tap Table: a copy for the chosen tap, or a dropped copy (R133, R152, R154). -/
def offerKeyCopy (p : PortNo) (n : SessionNo) (start : Word32) (bytes : List Byte) (s : Part) : Part :=
  match highestTap fun t => s.tapMatchesKeys t p n with
  | none => s
  | some t =>
    if s.keyCopyAdmissible t bytes.length then makeKeyCopy t p n start bytes s
    else s.modTap t fun x => { x with counters := x.counters.dropKeys bytes.length }

end Sys2Proof.Machine
end

