-- ==== Sys2Proof/Machine/DeliveryEvents.lean ====
section
/-!
DEFINITION. The uplink and delivery: frames that arrive (R2, R3), fan-out (R98 to R108), the hold timer (R105), the session timers
(R124, R128), data and control frames (R155 to R164), the shaper (R162), the link (R165).
-/
namespace Sys2Proof.Machine

/-! ### Arrival -/

/-- A frame that passed R2 joins the Receive FIFO, or is counted under overflow (R3). -/
def UplinkPort.place (u : UplinkPort) (f : RelayFrame) : UplinkPort :=
  if u.rxFifo.length < Config.rxFifoPlaces then { u with rxFifo := u.rxFifo ++ [f], accepted := u.accepted + 1 }
  else { u with overflow := u.overflow + 1 }

/-- A frame arrives whole (R2, R3). -/
def UplinkPort.arrive (u : UplinkPort) (station : Mac) (frame : List Byte) (goodFcs : Bool) : UplinkPort :=
  match acceptFrame station frame goodFcs with
  | none => { u with rejected := u.rejected + 1 }
  | some f => u.place f

def execFrameArrival (frame : List Byte) (goodFcs : Bool) (s : State) : Host.Outcome State Fault Refusal :=
  done { s with uplink := s.uplink.arrive s.part.system.station frame goodFcs }

/-! ### Fan-out -/

/-- The head of the port is eligible (R98). -/
def Port.eligible (x : Port) : Bool := !x.blockQueue.isEmpty && x.headHold != .held

/-- The ports in ascending order from the one after p, p itself last (R98). -/
def portsAfter (p : PortNo) : List PortNo := (List.range 48).map fun k => Fin.ofNat 48 (p.val + 1 + k)

/-- The port to serve (R98). -/
def Part.nextServed (s : Part) : Option PortNo := (portsAfter s.lastServed).find? fun p => (s.port p).eligible

/-- The ACTIVE observers of a port, in ascending number (R99). -/
def Part.observersOf (s : Part) (p : PortNo) : List SessionNo :=
  (s.sessionsOn p).filter fun n => (s.session n).role == .observer && (s.session n).state == .active

/-- The copy list after the owner: the tap, then the observers (R99). -/
def Part.otherCopies (s : Part) (b : Block) : List QueueNo :=
  ((highestTap fun t => s.tapMatchesOutput t b).map tapQueue).toList ++ (s.observersOf b.port).map sessionQueue

/-- The copy list: owner, tap, observers (R99). -/
def Part.copyList (s : Part) (b : Block) : List QueueNo :=
  ((s.ownerOf b.port).map sessionQueue).toList ++ s.otherCopies b

/-- Forward pressure applies to a serve of the port (R100). -/
def Port.underPressure (x : Port) : Bool :=
  x.profile.pressureThreshold != 0 && decide (x.profile.pressureThreshold < x.blockQueue.length)

/-- How many entries of the copy list are attempted (R100). -/
def Port.attempts (x : Port) (list : List QueueNo) : Nat := if x.underPressure then x.profile.pressureCopies else list.length

/-- A dropped copy of a block for the reader of queue q (R108, R154). -/
def dropCopy (b : Block) (s : Part) (q : QueueNo) : Part :=
  let s := s.modPort b.port fun x =>
    { x with counters := { x.counters with droppedCopies := x.counters.droppedCopies + 1 } }
  match queueOwner q with
  | .inl n => s.modSession n fun x => { x with gapBytes := x.gapBytes + BitVec.ofNat 32 b.length }
  | .inr t => s.modTap t fun x => { x with counters := x.counters.dropOutput b.length }

/-- A reference was admitted to queue q: a tap counts it (R144, R151). -/
def countCopy (q : QueueNo) (s : Part) : Part :=
  match queueOwner q with
  | .inl _ => s
  | .inr t => s.modTap t fun x => { x with counters := { x.counters with copiesQueued := x.counters.copiesQueued + 1 } }

/-- Attempt one entry of the copy list (R101). -/
def attemptCopy (b : Block) (s : Part) (q : QueueNo) : Part :=
  if s.refAdmissible q b.id then countCopy q (addRef q b.id false s) else dropCopy b s q

/-- In HOLD mode the owner's copy is refused and the head waits (R103). -/
def Part.holdsHead (s : Part) (b : Block) : Bool :=
  let x := s.port b.port
  x.profile.mode == .hold && x.headHold != .forfeit
    && (s.ownerOf b.port).any fun n => !s.refAdmissible (sessionQueue n) b.id

/-- The head becomes HELD; from NONE the hold timer starts, unless the limit is 0 (R103). -/
def Port.holdHead (x : Port) : Port :=
  { x with
    headHold := .held
    holdTimer := if x.headHold = .retry then x.holdTimer
                 else if x.profile.holdLimit = 0 then none else some (x.profile.holdLimit * 1000) }

/-- The serve completes: the block moves to the Output Chain, the chain is trimmed, a waiting port is retried (R107). -/
def completeServe (b : Block) (s : Part) : Part :=
  let s := s.modPort b.port fun x =>
    { x with blockQueue := x.blockQueue.tail, chain := x.chain ++ [b.id], headHold := .noHold, holdTimer := none }
  settleWalks (retryPort b.port (trimChain b.port s))

/-- Attempt the first `n` entries of a copy list, and drop the copies of the rest (R100, R101). -/
def attemptCopies (b : Block) (n : Nat) (list : List QueueNo) (s : Part) : Part :=
  (list.drop n).foldl (dropCopy b) ((list.take n).foldl (attemptCopy b) s)

/-- The copies of a serve: in FORFEIT the owner's is dropped without a request, and counts as one of the attempts (R100 to R102,
R105). -/
def placeCopies (b : Block) (s : Part) : Part :=
  let x := s.port b.port
  let list := s.copyList b
  let owner := ((s.ownerOf b.port).map sessionQueue).toList
  if x.headHold = .forfeit then
    attemptCopies b (x.attempts list - owner.length) (list.drop owner.length) (owner.foldl (dropCopy b) s)
  else attemptCopies b (x.attempts list) list s

/-- Serve the head block of a port (R99 to R107). -/
def serveBlock (b : Block) (s : Part) : Part :=
  if s.holdsHead b then s.modPort b.port Port.holdHead else completeServe b (placeCopies b s)

/-- The Fan-out Unit serves the next eligible head, if there is one (R98). -/
def fanout (s : Part) : Part :=
  match s.nextServed with
  | none => s
  | some p =>
    let s := { s with lastServed := p }
    match (s.port p).blockQueue.head?.bind s.block with
    | some b => serveBlock b s
    | none => s

def execFanoutServe (s : State) : Host.Outcome State Fault Refusal := donePart fanout s

/-- The hold timer expires (R105). -/
def expireHold (p : PortNo) (s : Part) : Part :=
  let x := s.port p
  if x.holdTimer ≠ none ∧ (x.headHold = .held ∨ x.headHold = .retry) then
    setCondition p .holdExpired (s.modPort p fun x =>
      { x with headHold := .forfeit, holdTimer := none
               counters := { x.counters with holdExpiries := x.counters.holdExpiries + 1 } })
  else s

def execHoldTimerExpiry (port : PortNo) (s : State) : Host.Outcome State Fault Refusal := donePart (expireHold port) s

/-! ### Session timers -/

/-- The idle timer of an ACTIVE session expires once its time has run down to 0; a request taken first has restarted it, and then
there is no expiry (R124; log 4). -/
def expireIdle (n : SessionNo) (s : Part) : Part :=
  if (s.session n).state = .active ∧ (s.session n).idleTimer = some 0 then abortSession .timeout s n else s

def execSessionIdleTimeout (session : SessionNo) (s : State) : Host.Outcome State Fault Refusal :=
  donePart (expireIdle session) s

/-- The drain limit expires: what is still queued is discarded and counted (R128). -/
def expireDrain (n : SessionNo) (s : Part) : Part :=
  if (s.session n).state = .draining ∧ (s.session n).drainTimer ≠ none then
    endSession n .detached .flushed (s.queue (sessionQueue n)).length (s.addressOf n) s
  else s

def execDrainTimerExpiry (session : SessionNo) (s : State) : Host.Outcome State Fault Refusal :=
  donePart (expireDrain session) s

/-! ### Data frames -/

/-- The reason and flags byte of an OUTPUT frame (R189). -/
def flagsByte (b : Block) (gap history : Bool) : Nat :=
  ((b.closeReason.map CloseReason.code).getD 0) + (if gap then 64 else 0) + (if history then 128 else 0)

/-- The body of an OUTPUT frame (R159, R189). -/
def outputBody (x : Session) (b : Block) (history : Bool) (bytes : List Byte) : List Byte :=
  bytesOf 2 x.tag.toNat ++ bytesOf 1 b.port.val ++ [b.epoch] ++ bytesOf 4 b.start.toNat ++ bytesOf 2 b.length
    ++ [b.marks] ++ bytesOf 1 (flagsByte b (b.start != x.nextOffset) history) ++ bytes

/-- The body of a TAPCOPY frame (R160, R189). -/
def tapcopyBody (t : TapNo) (b : Block) (bytes : List Byte) : List Byte :=
  bytesOf 1 t.val ++ bytesOf 1 b.kind.code ++ bytesOf 1 b.port.val ++ [b.epoch] ++ bytesOf 4 b.start.toNat
    ++ optByte (b.sender.map Fin.val) ++ [b.marks] ++ bytesOf 2 b.length ++ bytes

/-- Where a tap's frames go: its collector's entry as it stands (R160). -/
def Part.collectorAddress (s : Part) (t : TapNo) : Address :=
  let e := s.peer (Fin.ofNat 32 (s.tap t).entry.collector)
  { mac := e.mac, peerId := e.peerId }

/-- A session number as the header carries it. -/
def sessionByte (n : SessionNo) : Byte := BitVec.ofNat 8 n.val

/-- The frame an entry of queue q gives, as block and entry stand (R159, R160). -/
def Part.dataFrame (s : Part) (q : QueueNo) (r : Ref) (b : Block) : List Byte :=
  match queueOwner q with
  | .inl n => sentFrame s.system.station (s.addressOf n) kindOutput 0 (sessionByte n)
      (outputBody (s.session n) b r.history (s.blockBytes b))
  | .inr t => sentFrame s.system.station (s.collectorAddress t) kindTapcopy 0 0xFF (tapcopyBody t b (s.blockBytes b))

/-- The transmit record of a frame formed from queue q (R155, R158). -/
def dataKind (q : QueueNo) (b : Block) : TxKind :=
  match queueOwner q with
  | .inl n => .output b.id q (some n)
  | .inr _ => .tapcopy b.id q

/-- The session's next expected offset moves past the block it is sent (R159). -/
def advanceOffset (q : QueueNo) (b : Block) (s : Part) : Part :=
  match queueOwner q with
  | .inl n => s.modSession n fun x => { x with nextOffset := b.start + BitVec.ofNat 32 b.length }
  | .inr _ => s

/-- The charged length of a data frame of L block bytes (R158, R162). -/
def dataLength (length : Nat) : Nat := max 64 (length + 40)

/-- The candidate: the head of the current queue, while the visit has frames left (R156). -/
def Part.candidate (s : Part) : Option (Ref × Block) :=
  if s.framesLeft = 0 then none
  else (s.queue s.curQueue).head?.bind fun r => (s.block r.block).map fun b => (r, b)

/-- A candidate's frame begins, in the order of R158. -/
def beginData (q : QueueNo) (r : Ref) (b : Block) (s : State) : State :=
  let part := reportRelease q (s.part.setQueue q (s.part.queue q).tail)
  let frame := part.dataFrame q r b
  { s with
    part := { advanceOffset q b part with transmission := some { what := dataKind q b, frame, cut := false }
                                          framesLeft := part.framesLeft - 1 }
    uplink := { s.uplink with level := s.uplink.level - dataLength b.length } }

/-- The Scheduler's candidate begins when the uplink is ready and the level allows it (R156, R158, R163). -/
def dataFrameBegin (s : State) : State :=
  let s := settle s
  if s.part.dataReady s.uplink.link then
    match s.part.candidate with
    | some (r, b) => if (dataLength b.length : Int) ≤ s.uplink.level then beginData s.part.curQueue r b s else s
    | none => s
  else s

def execDataFrameBegin (s : State) : Host.Outcome State Fault Refusal := done (dataFrameBegin s)

/-- The bytes of a block as they stand, none for a block that does not exist. -/
def Part.bytesOfBlock (s : Part) (id : Nat) : List Byte := ((s.block id).map s.blockBytes).getD []

/-- An OUTPUT frame that completes folds into the output digest of the session its record names (R137, R161). -/
def foldOutput (id : Nat) (session : Option SessionNo) (s : Part) : Part :=
  match session with
  | some n => s.modSession n fun x => { x with outputDigest := foldBytes x.outputDigest (s.bytesOfBlock id) }
  | none => s

/-- A DRAINING session whose queue is empty ends with OK (R127, R161). -/
def drainDone (session : Option SessionNo) (s : Part) : Part :=
  match session with
  | some n =>
    if (s.session n).state = .draining ∧ s.queue (sessionQueue n) = [] then
      endSession n .detached .ok 0 (s.addressOf n) s
    else s
  | none => s

/-- The transmit record empties (R161). -/
def emptyRecord (s : Part) : Part := { s with transmission := none }

/-- An OUTPUT frame completes, in the order of R161. -/
def completeOutput (id : Nat) (session : Option SessionNo) (s : State) : State :=
  { s with part := emptyRecord (drainDone session (releaseHold id (foldOutput id session s.part)))
           uplink := { s.uplink with outputFramesSent := s.uplink.outputFramesSent + 1 } }

/-- A TAPCOPY frame completes (R161). -/
def completeTapcopy (id : Nat) (s : State) : State :=
  { s with part := emptyRecord (releaseHold id s.part)
           uplink := { s.uplink with tapFramesSent := s.uplink.tapFramesSent + 1 } }

/-- The frame on the wire, which link loss has not cut off. -/
def Part.onWire (s : Part) : Option TxKind := s.transmission.bind fun t => if t.cut then none else some t.what

def dataFrameComplete (s : State) : State :=
  match s.part.onWire with
  | some (.output id _ session) => completeOutput id session s
  | some (.tapcopy id _) => completeTapcopy id s
  | some (.reply _) => s
  | some (.notice _ _) => s
  | none => s

def execDataFrameComplete (s : State) : Host.Outcome State Fault Refusal := done (dataFrameComplete s)

/-! ### Control frames -/

/-- A REPLY frame (R14, R187, R188). -/
def replyFrame (station : Mac) (h : ReqHeader) (code : ResultCode) (data : List Byte) : List Byte :=
  sentFrame station { mac := h.source, peerId := h.peerId } kindReply h.tag h.session
    ([h.kind] ++ bytesOf 1 code.code ++ data)

/-- Notice kinds in the order R182 lists them. -/
def NoticeBody.kindCode : NoticeBody → Nat
  | .portCondition _ _ _ _ _ => 0
  | .sessionEvent _ _ _ _ _ => 1
  | .attention _ _ _ _ _ => 2

/-- The session number field of a notice (R182). -/
def NoticeBody.session : NoticeBody → Byte
  | .portCondition _ _ _ _ _ => 0xFF
  | .sessionEvent n _ _ _ _ => BitVec.ofNat 8 n.val
  | .attention t _ _ _ _ => BitVec.ofNat 8 t.val

/-- The fields that follow the lost indication (R189). -/
def NoticeBody.fields : NoticeBody → List Byte
  | .portCondition p epoch c set r =>
    bytesOf 1 p.val ++ [epoch] ++ bytesOf 1 c.code ++ bytesOf 2 set.toNat ++ optByte (r.map fun t => t.1.val)
      ++ bytesOf 4 ((r.map fun t => t.2.toNat).getD 0)
  | .sessionEvent _ tag p reason taker =>
    bytesOf 2 tag.toNat ++ bytesOf 1 p.val ++ bytesOf 1 reason.code ++ optByte (taker.map Fin.val)
  | .attention _ n i p tag => bytesOf 1 n.val ++ bytesOf 1 i.val ++ bytesOf 1 p.val ++ bytesOf 2 tag.toNat

/-- A NOTICE frame (R182, R189). -/
def noticeFrame (station : Mac) (n : Notice) : List Byte :=
  sentFrame station n.dst kindNotice 0 n.body.session (bytesOf 1 n.body.kindCode ++ yesNoByte n.lost ++ n.body.fields)

/-- The control frame chosen, with what it is and its bytes as formed now (R164). -/
def Part.controlFrame (s : Part) : Option (ControlKind × TxKind × List Byte) :=
  match s.chosen with
  | none => none
  | some .reply =>
    s.formed.head?.bind fun k =>
      match s.slot k with
      | .formed h code data => some (.reply, .reply k, replyFrame s.system.station h code data)
      | .free => none
      | .reserved _ => none
  | some .notice => s.notices.head?.map fun n => (.notice, .notice n true, noticeFrame s.system.station n)

/-- A control frame begins: the choice stands no longer, the arbiter's record takes its kind, the shaper is charged (R162,
R164). -/
def beginControl (kind : ControlKind) (what : TxKind) (frame : List Byte) (s : State) : State :=
  { s with part := { s.part with transmission := some { what, frame, cut := false }, lastControl := kind, chosen := none }
           uplink := { s.uplink with level := s.uplink.level - frame.length } }

/-- The chosen control frame begins when the uplink is free and the level stays at or above −burst (R163, R164). -/
def controlFrameBegin (s : State) : State :=
  let s := settle s
  if s.part.uplinkFree s.uplink.link then
    match s.part.controlFrame with
    | some (kind, what, frame) =>
      if -(s.part.system.burst : Int) ≤ s.uplink.level - frame.length then beginControl kind what frame s else s
    | none => s
  else s

def execControlFrameBegin (s : State) : Host.Outcome State Fault Refusal := done (controlFrameBegin s)

/-- A reply completes: its slot is free, it is counted, the uplink is free (R14, R164). -/
def completeReply (k : SlotNo) (s : State) : State :=
  { s with part := emptyRecord { s.part.setSlot k .free with formed := s.part.formed.filter (· != k) }
           uplink := { s.uplink with repliesSent := s.uplink.repliesSent + 1 } }

def replyComplete (s : State) : State :=
  match s.part.onWire with
  | some (.reply k) => completeReply k s
  | some (.notice _ _) => s
  | some (.output _ _ _) => s
  | some (.tapcopy _ _) => s
  | none => s

def execReplyComplete (s : State) : Host.Outcome State Fault Refusal := done (replyComplete s)

/-- The pending flag that a sent notice stood for clears (R136). -/
def clearAttention (marks : Option SessionNo) (s : Part) : Part :=
  match marks with
  | some n => s.modSession n fun x => { x with attention := false }
  | none => s

/-- A notice completes: it leaves the head of the Notice Queue if it still stands there (R136, R164, R181). -/
def completeNotice (n : Notice) (queued : Bool) (s : State) : State :=
  { s with part := emptyRecord (clearAttention n.marks
             { s.part with notices := if queued then s.part.notices.tail else s.part.notices })
           uplink := { s.uplink with noticesSent := s.uplink.noticesSent + 1 } }

def noticeComplete (s : State) : State :=
  match s.part.onWire with
  | some (.notice n queued) => completeNotice n queued s
  | some (.reply _) => s
  | some (.output _ _ _) => s
  | some (.tapcopy _ _) => s
  | none => s

def execNoticeComplete (s : State) : Host.Outcome State Fault Refusal := done (noticeComplete s)

/-! ### The shaper and the link -/

/-- The level rises by one byte, unless that would take it above +burst (R162). -/
def riseLevel (burst : Nat) (level : Int) : Int := if level + 1 ≤ burst then level + 1 else level

def execShaperTokenRise (s : State) : Host.Outcome State Fault Refusal :=
  done { s with uplink := { s.uplink with level := riseLevel s.part.system.burst s.uplink.level } }

/-- The link goes down; a frame on the wire is cut off and kept (R165). -/
def loseLink (s : State) : State :=
  match s.part.transmission with
  | some t =>
    if t.cut then { s with uplink := { s.uplink with link := .down } }
    else { s with part := { s.part with transmission := some { t with cut := true } }
                  uplink := { s.uplink with link := .down, framesCut := s.uplink.framesCut + 1 } }
  | none => { s with uplink := { s.uplink with link := .down } }

def execLinkDown (s : State) : Host.Outcome State Fault Refusal := done (loseLink s)

/-- The link comes up; a cut frame is resent at once, as it was formed and without a charge (R164, R165). -/
def regainLink (s : State) : State :=
  { s with uplink := { s.uplink with link := .up }
           part := { s.part with transmission := s.part.transmission.map fun t => { t with cut := false } } }

def execLinkUp (s : State) : Host.Outcome State Fault Refusal := done (regainLink s)

end Sys2Proof.Machine
end

