-- ==== Sys2Proof/Machine/SessionRequests.lean ====
section
/-!
DEFINITION. The session requests: ATTACH, DETACH, KEYS, TAKE, YIELD, HISTORY, DIGEST_RESET, ATTENTION (R113 to R138).
-/
namespace Sys2Proof.Machine

/-- The port a body names at byte k, reduced into range; `portGiven` says that it was in range. -/
def Request.port (c : Request) (k : Nat) : PortNo := Fin.ofNat 48 (c.byte k)
def Request.portGiven (c : Request) (k : Nat) : Bool := decide (c.byte k < 48)

/-- An owner session number, or 0xFF for none (R188). -/
def ownerByte (o : Option SessionNo) : List Byte := optByte (o.map Fin.val)

/-! ### ATTACH (R121, R122) -/

/-- The lowest-numbered FREE entry (R119). -/
def Part.freeSession (s : Part) : Option SessionNo := allSessions.find? fun n => (s.session n).state == .free

/-- The request asks for ownership. -/
def Request.asksOwn (c : Request) : Bool := c.byte 1 == 1

/-- The entry has room for one more session (R119, R121). -/
def Part.peerHasRoom (s : Part) (peer : Option PeerNo) : Bool :=
  peer.any fun i => (s.sessionsOf i).length < Config.sessionsPerPeer

/-- The checks of R121, in order. -/
def attachRefusal (c : Request) (s : Part) : Option ResultCode :=
  let x := s.port (c.port 0)
  if !c.portGiven 0 || decide (2 ≤ c.byte 1) then some .badValue
  else if c.peer = none then some .noRight
  else if !c.mayUse (c.port 0) then some .noRight
  else if c.asksOwn && c.maxRole == .observe then some .noRight
  else if x.portState = .disabled then some .badState
  else if c.asksOwn && x.portState == .localHold then some .localPresence
  else if s.freeSession = none ∨ s.peerHasRoom c.peer = false then some .noRoom
  else none

/-- An idle timeout of 0 stays off; any other is clamped to 5 to 3,600 s (R121). -/
def clampIdle (v : Nat) : Nat := if v = 0 then 0 else clampNat 5 3600 v

/-- The entry of a new session, as observer (R122, steps 1 and 2). -/
def newSession (c : Request) (x : Port) : Session :=
  let idle := clampIdle (numAt c.body 5 2)
  { Session.free with
    state := .active, peer := c.peer.getD 0, tag := BitVec.ofNat 16 (numAt c.body 2 2), port := c.port 0
    weight := clampNat 1 15 (c.byte 4), queueLimit := clampNat 4 255 (numAt c.body 7 2), idleTimeout := idle
    idleTimer := if idle = 0 then none else some (idle * 1000), nextOffset := x.streamOffset }

/-- A clamp changed a value of the request. -/
def attachClamped (c : Request) (x : Session) : Bool :=
  decide (x.weight ≠ c.byte 4 ∨ x.idleTimeout ≠ numAt c.body 5 2 ∨ x.queueLimit ≠ numAt c.body 7 2)

/-- Session n becomes owner of its port; the Fan-out Unit is told (R120). -/
def becomeOwner (n : SessionNo) (s : Part) : Part :=
  ownerChanged (s.session n).port (s.modSession n fun x => { x with role := .owner })

/-- Session n claims a port for a request: with no owner it becomes owner, with the TAKE right the owner is demoted first,
and otherwise nothing changes (R122, R129). -/
def claimPort (c : Request) (n : SessionNo) (p : PortNo) (s : Part) : Part :=
  match s.ownerOf p with
  | none => becomeOwner n s
  | some a => if c.mayTake p then becomeOwner n (demote a .demoted (some n) s) else s

/-- The data of the ATTACH reply (R122). -/
def attachData (n : SessionNo) (s : Part) : List Byte :=
  let x := s.session n
  let y := s.port x.port
  bytesOf 1 n.val ++ bytesOf 1 x.role.code ++ ownerByte (s.ownerOf x.port) ++ bytesOf 1 y.portState.code ++ [y.epoch]
    ++ bytesOf 4 x.nextOffset.toNat ++ bytesOf 1 x.weight ++ bytesOf 2 x.idleTimeout ++ bytesOf 2 x.queueLimit

/-- Set up the session (R122). -/
def attachSession (c : Request) (n : SessionNo) (s : Part) : Part :=
  let x := newSession c (s.port (c.port 0))
  let s := s.setSession n x
  let s := if c.asksOwn then claimPort c n x.port s else s
  answer c (if attachClamped c x then .adjusted else .ok) (attachData n s) s

def carryAttach (c : Request) (s : Part) : Part :=
  match attachRefusal c s, s.freeSession with
  | some code, _ => answer c code [] s
  | none, some n => attachSession c n s
  | none, none => answer c .noRoom [] s

def execAttach (s : State) : Host.Outcome State Fault Refusal := done (takePartRequest attachRow carryAttach s)

/-! ### DETACH (R125, R126) -/

/-- The data of the DETACH NOW reply (R125). -/
def detachNowData (cleared : Nat) (x : Session) : List Byte :=
  bytesOf 2 cleared ++ bytesOf 2 x.keysDigest.toNat ++ bytesOf 2 x.outputDigest.toNat ++ bytesOf 4 x.gapBytes.toNat
    ++ bytesOf 4 x.keyBytes.toNat

def carryDetachNow (c : Request) (s : Part) : Part :=
  let n := c.session
  let cleared := (s.queue (sessionQueue n)).length
  let x := s.session n
  answer c .ok (detachNowData cleared x) (endSession n .detached .ok 0 (s.addressOf n) s)

def execDetachNow (s : State) : Host.Outcome State Fault Refusal := done (takePartRequest (detachRow 0) carryDetachNow s)

/-- Session n enters DRAINING; an owner gives up its port without a notice (R126). -/
def startDrain (n : SessionNo) (s : Part) : Part :=
  let owned := s.owns n (s.session n).port
  let s := s.modSession n fun x =>
    { x with state := .draining, role := .observer, idleTimer := none, drainTimer := some Config.drainLimit }
  if owned then ownerChanged (s.session n).port s else s

def carryDetachFlush (c : Request) (s : Part) : Part :=
  let n := c.session
  if (s.session n).state = .draining then answer c .badState [] s
  else
    let s := s.modSession n fun x => { x with drainSlot := some c.slot }
    if (s.queue (sessionQueue n)).isEmpty then endSession n .detached .ok 0 (s.addressOf n) s else startDrain n s

def execDetachFlush (s : State) : Host.Outcome State Fault Refusal :=
  done (takePartRequest (detachRow 1) carryDetachFlush s)

/-! ### KEYS (R132, R133) -/

/-- The checks of R132, in order. -/
def keysRefusal (c : Request) (s : Part) : Option ResultCode :=
  let n := c.session
  let p := (s.session n).port
  let x := s.port p
  if (s.session n).state ≠ .active then some .badState
  else if x.portState = .localHold then some .localPresence
  else if s.owns n p = false then some .notOwner
  else if x.portState = .reconfig then some .busy
  else if x.fifoSpace < c.body.length then some .full
  else none

/-- Append a payload to the Transmit FIFO with its tag, and advance the key offset (R22, R133 steps 1 and 2). -/
def Port.appendKeys (x : Port) (n : SessionNo) (bytes : List Byte) : Port :=
  { x with engine := { x.engine with fifo := x.engine.fifo ++ bytes.map fun b => (b, some n) }
           keyOffset := x.keyOffset + BitVec.ofNat 32 bytes.length }

def acceptKeys (c : Request) (n : SessionNo) (p : PortNo) (s : Part) : Part :=
  let start := (s.port p).keyOffset
  let s := s.modPort p fun x => x.appendKeys n c.body
  let space := (s.port p).fifoSpace
  let s := s.modSession n fun x => { x with keyBytes := x.keyBytes + BitVec.ofNat 32 c.body.length }
  let s := offerKeyCopy p n start c.body s
  answer c .ok (bytesOf 4 start.toNat ++ bytesOf 2 space) (s.modPort p Port.load)

def carryKeys (c : Request) (s : Part) : Part :=
  let n := c.session
  let p := (s.session n).port
  match keysRefusal c s with
  | some .full => answer c .full (bytesOf 2 (s.port p).fifoSpace) s
  | some code => answer c code [] s
  | none => acceptKeys c n p s

def execKeys (s : State) : Host.Outcome State Fault Refusal := done (takePartRequest keysRow carryKeys s)

/-! ### TAKE and YIELD (R129, R131) -/

def carryTake (c : Request) (s : Part) : Part :=
  let n := c.session
  let p := (s.session n).port
  let owner := s.ownerOf p
  if (s.session n).state = .draining then answer c .badState [] s
  else if owner = some n then answer c .ok (ownerByte owner) s
  else if (s.port p).portState = .localHold then answer c .localPresence [] s
  else if c.mayOwn p = false then answer c .noRight [] s
  else if owner ≠ none ∧ c.mayTake p = false then answer c .busy [] s
  else answer c .ok (ownerByte owner) (claimPort c n p s)

def execTake (s : State) : Host.Outcome State Fault Refusal := done (takePartRequest takeRow carryTake s)

def carryYield (c : Request) (s : Part) : Part :=
  let n := c.session
  let p := (s.session n).port
  if (s.session n).state = .draining then answer c .badState [] s
  else if s.owns n p = false then answer c .notOwner [] s
  else answer c .ok [] (ownerChanged p (s.modSession n fun x => { x with role := .observer }))

def execYield (s : State) : Host.Outcome State Fault Refusal := done (takePartRequest yieldRow carryYield s)

/-! ### HISTORY (R113 to R116) -/

/-- The block ends after offset X (R114). -/
def Part.endsAfter (s : Part) (start : Word32) (id : Nat) : Bool :=
  (s.block id).any fun b => offsetBefore start (b.start + BitVec.ofNat 32 b.length)

/-- The candidates of a HISTORY, oldest first: from the first block of the chain that ends after X to the newest. There are none when the
chain's end is not after X, which an X more than 2^31 − 1 bytes before it counts as (R114). -/
def Part.historyCandidates (s : Part) (p : PortNo) (start : Word32) : List Nat :=
  let chain := (s.port p).chain
  if chain.getLast?.any (s.endsAfter start) then chain.dropWhile (fun id => !s.endsAfter start id) else []

/-- The admissible count N (R115). -/
def Part.admissibleCount (s : Part) (q : QueueNo) : Nat :=
  min (s.queueLimit q) (Config.queueReserve + (Config.sharedRefs - s.sharedRefsUsed))

/-- Place a block of history (R115). -/
def placeHistory (q : QueueNo) (s : Part) (id : Nat) : Part :=
  if s.refAdmissible q id then addRef q id true s else s

def carryHistory (c : Request) (s : Part) : Part :=
  let n := c.session
  let q := sessionQueue n
  let p := (s.session n).port
  if (s.session n).state ≠ .active then answer c .badState [] s
  else
    let cleared := (s.queue q).length
    let s := clearQueue q s
    let candidates := s.historyCandidates p (BitVec.ofNat 32 (numAt c.body 0 4))
    let placed := candidates.drop (candidates.length - s.admissibleCount q)
    let s := placed.foldl (placeHistory q) s
    let first := placed.head?.bind s.block
    let s := match first with
      | some b => s.modSession n fun x => { x with nextOffset := b.start }
      | none => s
    answer c .ok (bytesOf 2 cleared ++ bytesOf 4 ((first.map fun b => b.start.toNat).getD 0) ++ bytesOf 2 placed.length
      ++ bytesOf 2 (candidates.length - placed.length) ++ [(s.port p).epoch]) s

def execHistory (s : State) : Host.Outcome State Fault Refusal := done (takePartRequest historyRow carryHistory s)

/-! ### DIGEST_RESET (R138) -/

def carryDigestReset (c : Request) (s : Part) : Part :=
  let x := s.session c.session
  answer c .ok (bytesOf 2 x.keysDigest.toNat ++ bytesOf 2 x.outputDigest.toNat)
    (s.setSession c.session { x with keysDigest := digestStart, outputDigest := digestStart })

def execDigestReset (s : State) : Host.Outcome State Fault Refusal := done (takePartRequest digestResetRow carryDigestReset s)

/-! ### ATTENTION (R135) -/

/-- The target of an ATTENTION, if it is the number of a session that exists. -/
def Part.attentionTarget (s : Part) (c : Request) : Option SessionNo :=
  if h : c.byte 0 < 64 then
    if (s.session ⟨c.byte 0, h⟩).state = .free then none else some ⟨c.byte 0, h⟩
  else none

/-- The ATTENTION notice for a target's peer (R135, R182). -/
def attentionNotice (n t : SessionNo) (s : Part) : Notice :=
  { dst := s.addressOf t, lost := false, marks := some t
    body := .attention t n (s.session n).peer (s.session n).port (s.session t).tag }

def carryAttention (c : Request) (s : Part) : Part :=
  match s.attentionTarget c with
  | none => answer c .noSession [] s
  | some t =>
    if (s.session t).attention then answer c .attentionPending [] s
    else if Config.noticePlaces ≤ s.notices.length then answer c .busy [] s
    else answer c .ok [] (offerNotice (attentionNotice c.session t s) (s.modSession t fun x => { x with attention := true }))

def execAttention (s : State) : Host.Outcome State Fault Refusal := done (takePartRequest attentionRow carryAttention s)

end Sys2Proof.Machine
end

