-- ==== Sys2Proof/Machine/ImageCommands.lean ====
section
/-!
DEFINITION. The Start-up Image Controller and the three restarts: SAVE and how it ends (R185), RESTART (R186), power-on and pin
reset (R60, R184).
-/
namespace Sys2Proof.Machine

/-! ### SAVE -/

/-- Every table as it stands; the profile entries are those in effect (R185). -/
def Part.tables (s : Part) : Tables :=
  { system := s.system, peers := s.peers, profiles := mapTable s.ports Port.profile, triggers := s.triggers,
    taps := mapTable s.taps Tap.entry }

def carrySave (c : Request) (s : Part) : Part :=
  if s.imageState = .saving then answer c .busy [] s
  else { s with imageState := .saving,
                save := some { image := s.tables.image, slot := c.slot, timer := Config.saveLimit } }

def execSave (s : State) : Host.Outcome State Fault Refusal := done (takePartRequest saveRow carrySave s)

/-- The image passes the check of R183. -/
def imagePasses (l : List Byte) : Bool := (loadImage l).isSome

/-- A SAVE ends with what the flash now holds: VALID and OK when that passes its check, NO_IMAGE and ABORTED otherwise
(R185). DESIGN CHOICE (log 26): a read-back that does not answer leaves nothing in the flash for later start-ups. -/
def endSave (flash : Option (List Byte)) (s : Part) : Part :=
  match s.save with
  | none => s
  | some job =>
    let passes := flash.any imagePasses
    formReply job.slot (if passes then .ok else .aborted) []
      { s with save := none, flash, imageState := if passes then .valid else .noImage }

/-- What a read of the flash finds, when it holds `held`. -/
def readFlash (a : FlashAnswer) (held : Option (List Byte)) : Option (List Byte) :=
  match a with
  | .stored => held
  | .bytes l => some l
  | .silent => none

def execSaveWriteEnd (readBack : FlashAnswer) (s : State) : Host.Outcome State Fault Refusal :=
  donePart (fun s => endSave (readFlash readBack (s.save.map SaveJob.image)) s) s

/-- The write stops; the flash is left with nothing that passes the check (R185; log 26). -/
def execSaveTimeout (s : State) : Host.Outcome State Fault Refusal := donePart (endSave none) s

/-! ### RESTART -/

/-- Every delayed operation of the ports ends ABORTED: the pending loads and then the signals, in ascending port (R186, step 1;
log 25). -/
def abortDelayed (s : Part) : Part :=
  allPorts.foldl (fun s p => abortSignal p s) (allPorts.foldl (fun s p => abortPendingLoad p s) s)

/-- Every existing session ends with reason RESTART, in ascending number (R186, step 2). -/
def endAllSessions (s : Part) : Part :=
  (allSessions.filter fun n => (s.session n).state != .free).foldl (abortSession .restart) s

/-- The frame in transmission after a RESTART: a control frame completes, a cut notice is gone with its queue, a data frame is
discarded (R166, R181; log 25). -/
def keptTransmission (t : Option Transmission) : Option Transmission :=
  match t with
  | none => none
  | some ⟨.reply k, frame, cut⟩ => some ⟨.reply k, frame, cut⟩
  | some ⟨.notice n _, frame, cut⟩ => if cut then none else some ⟨.notice n false, frame, cut⟩
  | some ⟨.output _ _ _, _, _⟩ => none
  | some ⟨.tapcopy _ _, _, _⟩ => none

/-- A port as RESTART leaves it before the ports start: stopped and empty, with its entry, its epoch, its debounce and its pins
(R44, R60, R186). -/
def Port.restarted (x : Port) : Port :=
  { Port.initial x.profile with epoch := x.epoch, dsrDebounced := x.dsrDebounced, debounceTimer := x.debounceTimer,
                                pins := x.pins }

/-- Steps 3 to 5 of R186: what is kept, and every store, queue and record at its starting value. -/
def clearTraffic (s : Part) : Part :=
  { Part.initial s.commissioningStrap s.addressStraps with
    slots := s.slots, formed := s.formed, peers := s.peers, triggers := s.triggers
    taps := mapTable s.taps fun x => { x with counters := .zero }
    system := s.system, commissioning := s.commissioning, ports := mapTable s.ports Port.restarted
    transmission := keptTransmission s.transmission, imageState := s.imageState, flash := s.flash, save := s.save }

/-- A port starts at RESTART if its entry is enabled (R45, R60). -/
def restartPort (s : Part) (p : PortNo) : Part :=
  if (s.port p).profile.enabled then startPort p (s.modPort p fun x => { x with epoch := x.epoch + 1 }) else s

/-- RESTART on the part, once its own reply is formed (R186). DESIGN CHOICE (log 49): the ports start in ascending number, and so
the LOCAL notices of those that enter LOCAL_HOLD are queued in that order; the rules name none. -/
def restartPart (s : Part) : Part := allPorts.foldl restartPort (clearTraffic (endAllSessions (abortDelayed s)))

def carryRestart (c : Request) (s : State) : State :=
  if s.part.imageState = .saving then { s with part := answer c .busy [] s.part }
  else { s with part := restartPart (answer c .ok [] s.part),
                uplink := UplinkPort.initial s.uplink.link s.part.system.burst }

def execRestart (s : State) : Host.Outcome State Fault Refusal := done (takeRequest restartRow carryRestart s)

/-! ### Power-on and pin reset -/

/-- The tables of a part without an image (R8, R42, R91, R143, R184). -/
def Tables.withoutImage (addressStraps : BitVec 4) : Tables :=
  { system := .initial addressStraps, peers := Vector.replicate 32 .empty, profiles := Vector.replicate 48 .default,
    triggers := Vector.replicate 16 .empty, taps := Vector.replicate 4 .empty }

/-- The debounce of a port whose raw DSR is already asserted at the start runs toward 20 ms (R56; log 35). -/
def startDebounce (dsr : Bool) : Option Nat := if dsr then some Config.debounceTime else none

/-- A port right after power-on or pin reset, before the ports start (R44, R60). -/
def Port.poweredOn (profile : Profile) (pins : PinLevels) : Port :=
  { Port.initial profile with pins, debounceTimer := startDebounce pins.dsr }

/-- The ports with their loaded entries; the lines outside stand as they stood (log 26). -/
def poweredPorts (t : Tables) (ports : Vector Port 48) : Vector Port 48 :=
  Vector.ofFn fun p : PortNo => Port.poweredOn t.profiles[p] (ports[p]).pins

/-- The part with its tables loaded, its commissioning state computed and every port stopped (R184). -/
def loadedPart (strap : Bool) (addressStraps : BitVec 4) (t : Tables) (image : ImageState) (flash : Option (List Byte))
    (ports : Vector Port 48) : Part :=
  let s : Part :=
    { Part.initial strap addressStraps with
      peers := t.peers, triggers := t.triggers, taps := mapTable t.taps fun e => { entry := e, counters := .zero }
      system := t.system, ports := poweredPorts t ports, imageState := image, flash }
  { s with commissioning := s.commissioningNow }

/-- A port starts at power-on and pin reset if its entry is enabled (R60). -/
def startEnabled (s : Part) (p : PortNo) : Part := if (s.port p).profile.enabled then startPort p s else s

/-- A SAVE that power-on or pin reset interrupts leaves an image that fails its check (R185; log 26). -/
def Part.flashHeld (s : Part) : Option (List Byte) := if s.imageState = .saving then none else s.flash

/-- Power-on or pin reset of the part (R60, R184). -/
def startUp (strap : Bool) (addressStraps : BitVec 4) (answer : FlashAnswer) (s : Part) : Part :=
  let read := if s.imageState = .saving then none else readFlash answer s.flash
  let held := if answer = .silent then s.flashHeld else read
  match read.bind loadImage with
  | some t => allPorts.foldl startEnabled (loadedPart strap addressStraps t .valid held s.ports)
  | none => allPorts.foldl startEnabled (loadedPart strap addressStraps (.withoutImage addressStraps) .noImage held s.ports)

/-- Power-on or pin reset of the whole block: the Uplink Port empties with its level at +burst (R3, R162, R164). -/
def startUpState (strap : Bool) (addressStraps : BitVec 4) (answer : FlashAnswer) (s : State) : State :=
  let part := startUp strap addressStraps answer s.part
  { s with part, uplink := UplinkPort.initial s.uplink.link part.system.burst }

def execPowerOn (strap : Bool) (addressStraps : BitVec 4) (flash : FlashAnswer) (s : State) :
    Host.Outcome State Fault Refusal := done (startUpState strap addressStraps flash s)

def execPinReset (strap : Bool) (addressStraps : BitVec 4) (flash : FlashAnswer) (s : State) :
    Host.Outcome State Fault Refusal := done (startUpState strap addressStraps flash s)

end Sys2Proof.Machine
end

