-- ==== Sys2Proof/Machine/LineEvents.lean ====
section
/-!
DEFINITION. Events on the console lines and their timers: characters sent and received (R23 to R34), CTS and DSR (R25, R56,
R57), the RECONFIG limit (R51), the idle gap (R88), the phases of a signal (R172, R173), the receiver's returns to HUNTING (R30).
-/
namespace Sys2Proof.Machine

/-! ### A character leaves -/

/-- A key byte that completed folds into the keys digest of its session, if that exists (R26, R29). -/
def foldKey (dataBits : Nat) (shift : ShiftReg) (s : Part) : Part :=
  match shift with
  | .key b (some n) =>
    if (s.session n).state = .free then s
    else s.modSession n fun x => { x with keysDigest := foldByte x.keysDigest (lineByte dataBits b) }
  | .key _ none => s
  | .flow _ => s
  | .empty => s

/-- The shift register is empty, and a BREAK that waited for it goes to SPACE (R172). -/
def Port.shiftDone (x : Port) : Port :=
  { x with
    engine := { x.engine with shift := .empty }
    signal := x.signal.map fun g => if g.phase = .waiting then { g with phase := .space } else g }

/-- A character completes on TXD (R23, R26, R50, R51, R57). -/
def completeTx (p : PortNo) (s : Part) : Part :=
  let x := s.port p
  if x.engine.shift = .empty then s
  else
    let s := (foldKey x.profile.dataBits x.engine.shift s).modPort p Port.shiftDone
    reconfigIdle p ((finishFlushed p s).modPort p Port.load)

def execTxCharacterComplete (port : PortNo) (s : State) : Host.Outcome State Fault Refusal := donePart (completeTx port) s

/-! ### A character arrives -/

/-- The receiver can take a character: its engine runs, and it does not wait for RXD to leave space (R21, R30; log 10). -/
def Port.canReceive (x : Port) : Bool := x.running && (x.engine.receiver != .waitMark || x.pins.rxd)

/-- A character as the receiver assembled it. -/
structure RxChar where
  byte : Byte
  framing : Bool
  parity : Bool
  isBreak : Bool
  deriving DecidableEq, Repr

/-- The receiver's reading of a sample under a port's format (R30, R31). -/
def readChar (e : Profile) (r : RxSample) : RxChar :=
  let byte := lineByte e.dataBits r.data
  { byte, framing := !r.stopMark, parity := !parityGood e.parity byte r.parityBit
    isBreak := !r.stopMark && byte == 0 && (e.parity == .noParity || !r.parityBit) && r.stillSpace }

/-- RXD after the character: at mark when the stop bit or the later sample found it there (R30, R31). -/
def endsAtMark (r : RxSample) : Bool := r.stopMark || !r.stillSpace

/-- A receive break (R31, R89). -/
def receiveBreak (p : PortNo) (s : Part) : Part :=
  let s := s.modPort p fun x =>
    { x with engine := { x.engine with receiver := .waitMark }
             counters := { x.counters with breaks := x.counters.breaks + 1 } }
  (closeBlock p .breakFound (setCondition p .rxBreak s)).modPort p fun x => { x with gapTimer := none }

/-- A byte enters the empty holding slot (R34). -/
def Port.holdByte (x : Port) (byte : Byte) : Port := { x with engine := { x.engine with slot := some byte } }

/-- A byte that found the slot full is lost (R34). -/
def overrunByte (p : PortNo) (s : Part) : Part :=
  setCondition p .overrun (s.modPort p fun x => { x with counters := { x.counters with overrun := x.counters.overrun + 1 } })

/-- Set FRAMING, PARITY or both, as found (R32). -/
def setErrors (p : PortNo) (c : RxChar) (s : Part) : Part :=
  let s := if c.framing then setCondition p .framing s else s
  if c.parity then setCondition p .parity s else s

/-- A character with a framing or parity error that is no break (R32; log 15). -/
def receiveError (p : PortNo) (c : RxChar) (s : Part) : Part :=
  match (s.port p).profile.errorPolicy, (s.port p).engine.slot with
  | .drop, _ =>
    setErrors p c (s.modPort p fun x => { x with counters := { x.counters with errorsDropped := x.counters.errorsDropped + 1 } })
  | .keep, none =>
    let s := s.modPort p fun x => { x.holdByte c.byte with counters := { x.counters with errorsKept := x.counters.errorsKept + 1 } }
    offerHeldByte p (setErrors p c s)
  | .keep, some _ => setErrors p c (overrunByte p s)

/-- A good byte is offered to the holding slot (R34). -/
def receiveGood (p : PortNo) (byte : Byte) (s : Part) : Part :=
  match (s.port p).engine.slot with
  | none => offerHeldByte p (s.modPort p fun x => x.holdByte byte)
  | some _ => overrunByte p s

/-- A flow character from the console; XON may let the FIFO go on (R33, R23). -/
def receiveFlow (p : PortNo) (byte : Byte) (s : Part) : Part :=
  s.modPort p fun x => Port.load { x with engine := { x.engine with consoleStopped := byte == xoffByte } }

/-- Classify a character and act on it (R30 to R34, R87). -/
def receiveChar (p : PortNo) (c : RxChar) (s : Part) : Part :=
  if c.isBreak then receiveBreak p s
  else
    let s := s.modPort p fun x =>
      Port.startGap { x with engine := { x.engine with receiver := if c.framing then .waitMark else .hunting } }
    if c.framing || c.parity then receiveError p c s
    else if (s.port p).profile.flow = .soft ∧ (c.byte = xonByte ∨ c.byte = xoffByte) then receiveFlow p c.byte s
    else receiveGood p c.byte s

/-- A character completes on RXD. -/
def completeRx (p : PortNo) (r : RxSample) (s : Part) : Part :=
  if (s.port p).canReceive then
    receiveChar p (readChar (s.port p).profile r)
      (s.modPort p fun x => { x with pins := { x.pins with rxd := endsAtMark r } })
  else s

def execRxCharacterComplete (port : PortNo) (sample : RxSample) (s : State) : Host.Outcome State Fault Refusal :=
  donePart (completeRx port sample) s

/-- RXD is at mark; a receiver that waited for that hunts again (R30). -/
def rxdAtMark (p : PortNo) (s : Part) : Part :=
  s.modPort p fun x =>
    { x with
      pins := { x.pins with rxd := true }
      engine := { x.engine with receiver := if x.running ∧ x.engine.receiver = .waitMark then .hunting
                                            else x.engine.receiver } }

def execRxdReturnToMark (port : PortNo) (s : State) : Host.Outcome State Fault Refusal := donePart (rxdAtMark port) s

/-- A start bit taken as noise: no character, no error, no condition, and the receiver hunts (R30). -/
def startNoise (p : PortNo) (s : Part) : Part :=
  if (s.port p).canReceive then
    s.modPort p fun x =>
      { x with pins := { x.pins with rxd := true }, engine := { x.engine with receiver := .hunting } }
  else s

def execStartBitNoise (port : PortNo) (s : State) : Host.Outcome State Fault Refusal := donePart (startNoise port) s

/-! ### CTS and DSR -/

/-- CTS takes a level; under flow HARD its assertion lifts the transmit stop (R24, R25). -/
def changeCts (p : PortNo) (asserted : Bool) (s : Part) : Part :=
  s.modPort p fun x => Port.load { x with pins := { x.pins with cts := asserted } }

def execCtsChange (port : PortNo) (asserted : Bool) (s : State) : Host.Outcome State Fault Refusal :=
  donePart (changeCts port asserted) s

/-- The debounce timer after the raw DSR takes a level (R56). -/
def Port.debounce (x : Port) (asserted : Bool) : Option Nat :=
  if asserted = x.dsrDebounced then none
  else if x.debounceTimer = none then some Config.debounceTime
  else x.debounceTimer

/-- The raw DSR takes a level (R56). -/
def changeDsr (p : PortNo) (asserted : Bool) (s : Part) : Part :=
  s.modPort p fun x => { x with pins := { x.pins with dsr := asserted }, debounceTimer := x.debounce asserted }

def execDsrChange (port : PortNo) (asserted : Bool) (s : State) : Host.Outcome State Fault Refusal :=
  donePart (changeDsr port asserted) s

/-- The debounce timer expires (R56, R57, R58). -/
def expireDebounce (p : PortNo) (s : Part) : Part :=
  if (s.port p).debounceTimer = none then s
  else
    let was := (s.port p).presence
    let s := s.modPort p fun x => { x with debounceTimer := none, dsrDebounced := x.pins.dsr }
    if (s.port p).presence && !was then presenceAsserts p s else s

def execDsrDebounceExpiry (port : PortNo) (s : State) : Host.Outcome State Fault Refusal := donePart (expireDebounce port) s

/-! ### The RECONFIG limit, the idle gap -/

/-- The RECONFIG limit expires: the FIFO is flushed, RECONFIG_FLUSH is set, and the load applies when the shift register is
empty, then in the same event (R51, R179). -/
def expireReconfig (p : PortNo) (s : Part) : Part :=
  if (s.port p).reconfigTimer = none then s
  else
    let count := (s.port p).engine.fifo.length
    let s := s.modPort p fun x => Port.flushLoad { x with engine := { x.engine with fifo := [] } } count
    if (s.port p).engine.shift = .empty then
      inTableOrder p (fun s => finishFlushed p (setCondition p .reconfigFlush s)) s
    else setCondition p .reconfigFlush s

def execReconfigTimerExpiry (port : PortNo) (s : State) : Host.Outcome State Fault Refusal := donePart (expireReconfig port) s

/-- The idle gap expires (R88). DESIGN CHOICE (log 57): an admission taken before it leaves the running timer running, so that an expiry
commanded behind the admission closes the block with GAP. -/
def expireGap (p : PortNo) (s : Part) : Part :=
  if (s.port p).gapTimer = none then s else closeBlock p .gap (s.modPort p fun x => { x with gapTimer := none })

def execIdleGapExpiry (port : PortNo) (s : State) : Host.Outcome State Fault Refusal := donePart (expireGap port) s

/-! ### The phases of a signal -/

/-- The signal after its SPACE phase: MARK, for one character time of the format in effect (R172). -/
def Signal.toMark (g : Signal) (e : Profile) : Signal :=
  { g with phase := .mark (e.charBits * (2 * e.d8)), elapsed := g.duration }

/-- The SPACE phase of a BREAK has lasted its duration (R172). -/
def expireSpace (p : PortNo) (s : Part) : Part :=
  s.modPort p fun x => { x with signal := x.signal.map fun g => if g.phase = .space then g.toMark x.profile else g }

def execBreakSpaceExpiry (port : PortNo) (s : State) : Host.Outcome State Fault Refusal := donePart (expireSpace port) s

/-- The phase is MARK. -/
def SignalPhase.isMark : SignalPhase → Bool
  | .mark _ => true
  | .waiting | .space | .on => false

/-- The MARK phase of a BREAK ends, and the signal with it (R172, R173). -/
def expireMark (p : PortNo) (s : Part) : Part :=
  if (s.port p).signal.any fun g => g.phase.isMark then endSignal p s else s

def execBreakMarkExpiry (port : PortNo) (s : State) : Host.Outcome State Fault Refusal := donePart (expireMark port) s

/-- A pulse has lasted its duration (R172, R173). -/
def expirePulse (p : PortNo) (s : Part) : Part :=
  if (s.port p).signal.any fun g => g.phase == .on then endSignal p s else s

def execPulseExpiry (port : PortNo) (s : State) : Host.Outcome State Fault Refusal := donePart (expirePulse port) s

end Sys2Proof.Machine
end

