-- ==== Sys2Proof/Machine/LineRequests.lean ====
section
/-!
DEFINITION. The requests of the Line Signal Unit: SIGNAL with its three kinds (R171, R172), STAGE (R175), APPLY (R176) and
SNAPSHOT (R177).
-/
namespace Sys2Proof.Machine

/-! ### SIGNAL -/

/-- The policy checks of one kind of signal, in the order of R171. -/
def policyRefusal (kind : SignalKind) (c : Request) (x : Port) : Option ResultCode :=
  match kind with
  | .breakSignal => if x.profile.breakPolicy = .refuse then some .noRight else none
  | .auxPulse =>
    if c.signalRight ≠ .all then some .noRight
    else if x.profile.auxUse ≠ .resetAssist then some .badState
    else none
  | .dtrPulse =>
    if c.signalRight ≠ .all then some .noRight
    else if x.profile.dtrControl ≠ .auto then some .badState
    else none

/-- The checks of R171, in order. -/
def signalRefusal (kind : SignalKind) (c : Request) (s : Part) : Option ResultCode :=
  let n := c.session
  let p := (s.session n).port
  let x := s.port p
  if (s.session n).state ≠ .active then some .badState
  else if x.portState = .localHold then some .localPresence
  else if s.owns n p = false then some .notOwner
  else if x.portState = .reconfig then some .busy
  else match policyRefusal kind c x with
    | some code => some code
    | none => if x.signal ≠ none then some .busy else none

/-- The duration a signal takes, from the requested one (R171). -/
def signalDuration (kind : SignalKind) (x : Port) (requested : Nat) : Nat :=
  match kind with
  | .breakSignal => clampNat 10 2000 requested
  | .auxPulse => x.profile.auxPulse
  | .dtrPulse => clampNat 100 5000 requested

/-- The duration used is not the requested one, for a kind whose duration is clamped (R173). -/
def signalClamped (kind : SignalKind) (x : Port) (requested : Nat) : Bool :=
  match kind with
  | .auxPulse => false
  | .breakSignal | .dtrPulse => decide (signalDuration kind x requested ≠ requested)

/-- The phase a signal begins in (R172). -/
def firstPhase (kind : SignalKind) (x : Port) : SignalPhase :=
  match kind with
  | .breakSignal => if x.engine.shift = .empty then .space else .waiting
  | .auxPulse | .dtrPulse => .on

/-- The record of an accepted signal (R170, R171). -/
def newSignal (kind : SignalKind) (c : Request) (x : Port) : Signal :=
  let requested := numAt c.body 1 2
  { kind, phase := firstPhase kind x, duration := signalDuration kind x requested, elapsed := 0, session := c.session,
    slot := c.slot, clamped := signalClamped kind x requested }

/-- The signal record takes the signal, and a pulse moves its line at once (R172). -/
def Port.beginSignal (x : Port) (g : Signal) : Port := Port.refreshLines { x with signal := some g }

def carrySignal (kind : SignalKind) (c : Request) (s : Part) : Part :=
  match signalRefusal kind c s with
  | some code => answer c code [] s
  | none => s.modPort (s.session c.session).port fun x => x.beginSignal (newSignal kind c x)

def execSignalBreak (s : State) : Host.Outcome State Fault Refusal :=
  done (takePartRequest (signalRow 0) (carrySignal .breakSignal) s)

def execSignalAuxPulse (s : State) : Host.Outcome State Fault Refusal :=
  done (takePartRequest (signalRow 1) (carrySignal .auxPulse) s)

def execSignalDtrPulse (s : State) : Host.Outcome State Fault Refusal :=
  done (takePartRequest (signalRow 2) (carrySignal .dtrPulse) s)

/-! ### One line of a port -/

def allLines : List Line := [.rts, .dtr, .aux]

def LineDrive.get (d : LineDrive) : Line → Drive | .rts => d.rts | .dtr => d.dtr | .aux => d.aux
def LineDrive.put (d : LineDrive) (l : Line) (v : Drive) : LineDrive :=
  match l with | .rts => { d with rts := v } | .dtr => { d with dtr := v } | .aux => { d with aux := v }
def Staged.get (d : Staged) : Line → Option Drive | .rts => d.rts | .dtr => d.dtr | .aux => d.aux
def Staged.put (d : Staged) (l : Line) (v : Option Drive) : Staged :=
  match l with | .rts => { d with rts := v } | .dtr => { d with dtr := v } | .aux => { d with aux := v }
def Profile.lineControl (e : Profile) : Line → LineControl
  | .rts => e.rtsControl | .dtr => e.dtrControl | .aux => e.auxControl

/-- A signal in progress drives the line (R172). -/
def Port.signalDrives (x : Port) : Line → Bool
  | .rts => false
  | .dtr => x.signalIs .dtrPulse
  | .aux => x.signalIs .auxPulse

/-- The Line Drive Record in a reply (R188). -/
def LineDrive.bytes (d : LineDrive) : List Byte := bytesOf 1 d.rts.code ++ bytesOf 1 d.dtr.code ++ bytesOf 1 d.aux.code

/-- The peer of a request holds the session that owns the port (R175, R176). -/
def Part.peerOwns (s : Part) (c : Request) (p : PortNo) : Bool :=
  (s.ownerOf p).any fun n => c.peer == some (s.session n).peer

/-- The peer has the configure right or the session that owns the port. -/
def Part.mayDrive (s : Part) (c : Request) (p : PortNo) : Bool := c.configure || s.peerOwns c p

/-! ### STAGE -/

/-- One entry of a STAGE list. -/
structure StageEntry where
  port : PortNo
  line : Line
  value : Drive
  deriving DecidableEq, Repr

/-- The entry in three bytes, if its values lie in their sets. -/
def StageEntry.ofBytes (l : List Byte) : Option StageEntry :=
  if h : numAt l 0 1 < 48 then do
    let line ← Line.ofCode (numAt l 1 1)
    let value ← Drive.ofCode (numAt l 2 1)
    return { port := ⟨numAt l 0 1, h⟩, line, value }
  else none

/-- The entries of a STAGE body, if its values lie in their sets (R175). -/
def stageEntries (body : List Byte) : Option (List StageEntry) :=
  let count := numAt body 0 1
  if 1 ≤ count ∧ count ≤ 144 then (recordsAt body 1 3 count).mapM StageEntry.ofBytes else none

/-- Write one entry into the Staging Record; the count is of the values replaced (R175). DESIGN CHOICE (log 47): an entry that
replaces an earlier one of the same list counts. -/
def stageOne (acc : Part × Nat) (e : StageEntry) : Part × Nat :=
  (acc.1.modPort e.port fun x => { x with staging := x.staging.put e.line (some e.value) },
   if ((acc.1.port e.port).staging.get e.line).isSome then acc.2 + 1 else acc.2)

def carryStage (c : Request) (s : Part) : Part :=
  match stageEntries c.body with
  | none => answer c .badValue [] s
  | some entries =>
    if entries.all fun e => s.mayDrive c e.port then
      let r := entries.foldl stageOne (s, 0)
      answer c .ok (bytesOf 2 entries.length ++ bytesOf 2 r.2) r.1
    else answer c .noRight [] s

def execStage (s : State) : Host.Outcome State Fault Refusal := done (takePartRequest stageRow carryStage s)

/-! ### APPLY -/

/-- Why a staged entry is skipped; the codes follow the order of R176. -/
inductive SkipReason where
  | portDisabled | noRight | notManual | signal
  deriving DecidableEq, Repr

def SkipReason.code : SkipReason → Nat | .portDisabled => 0 | .noRight => 1 | .notManual => 2 | .signal => 3

/-- The first reason that applies to an entry for a line of a port (R176). -/
def Part.skipReason (s : Part) (c : Request) (p : PortNo) (l : Line) : Option SkipReason :=
  let x := s.port p
  if x.portState = .disabled then some .portDisabled
  else if s.mayDrive c p = false then some .noRight
  else if x.profile.lineControl l = .auto then some .notManual
  else if x.signalDrives l then some .signal
  else none

/-- The lines of a port that have a staged value, in the order RTS, DTR, AUX. -/
def Port.stagedLines (x : Port) : List Line := allLines.filter fun l => (x.staging.get l).isSome

/-- The staged value of a line becomes live and leaves the Staging Record (R176). -/
def Port.applyLine (x : Port) (l : Line) : Port :=
  match x.staging.get l with
  | some v => { x with lines := x.lines.put l v, staging := x.staging.put l none }
  | none => x

/-- The staged entries on a set of ports with what R176 decides of each, in its order. -/
def Part.applyPlan (s : Part) (c : Request) (set : List PortNo) : List (PortNo × Line × Option SkipReason) :=
  set.flatMap fun p => (s.port p).stagedLines.map fun l => (p, l, s.skipReason c p l)

/-- One entry of the plan: applied unless it is skipped. -/
def applyOne (s : Part) (e : PortNo × Line × Option SkipReason) : Part :=
  match e.2.2 with
  | none => s.modPort e.1 (·.applyLine e.2.1)
  | some _ => s

/-- A skipped entry in the reply: port, line, reason. -/
def skipBytes (e : PortNo × Line × Option SkipReason) : List Byte :=
  match e.2.2 with
  | none => []
  | some r => bytesOf 1 e.1.val ++ bytesOf 1 e.2.1.code ++ bytesOf 1 r.code

def carryApply (c : Request) (s : Part) : Part :=
  let set := numAt c.body 0 8
  if 2 ^ 48 ≤ set then answer c .badValue [] s
  else
    let ports := allPorts.filter fun p => set.testBit p.val
    let plan := s.applyPlan c ports
    let skipped := plan.filter fun e => e.2.2.isSome
    let s := plan.foldl applyOne s
    answer c .ok (bytesOf 2 (plan.length - skipped.length) ++ bytesOf 1 skipped.length ++ skipped.flatMap skipBytes
      ++ ports.flatMap fun p => (s.port p).lines.bytes) s

def execApply (s : State) : Host.Outcome State Fault Refusal := done (takePartRequest applyRow carryApply s)

/-! ### SNAPSHOT -/

/-- The data of the SNAPSHOT reply, in the order of R177. -/
def snapshotData (s : Part) : List Byte :=
  portSetBytes (fun p => (s.port p).pins.rxd) ++ portSetBytes (fun p => (s.port p).pins.cts)
    ++ portSetBytes (fun p => (s.port p).pins.dsr) ++ portSetBytes (fun p => (s.port p).presence)
    ++ portSetBytes (fun p => (s.port p).pins.rxd != (s.port p).lastSnap.rxd)
    ++ portSetBytes (fun p => (s.port p).pins.cts != (s.port p).lastSnap.cts)
    ++ portSetBytes (fun p => (s.port p).pins.dsr != (s.port p).lastSnap.dsr)
    ++ allPorts.flatMap (fun p => (s.port p).lines.bytes)
    ++ allPorts.flatMap fun p => optByte ((s.port p).signal.map fun g => g.kind.code)

/-- Every port's sample becomes its last snapshot (R177). -/
def keepSnapshot (s : Part) : Part := { s with ports := mapTable s.ports fun x => { x with lastSnap := x.pins } }

def carrySnapshot (c : Request) (s : Part) : Part := answer c .ok (snapshotData s) (keepSnapshot s)

def execSnapshot (s : State) : Host.Outcome State Fault Refusal := done (takePartRequest snapshotRow carrySnapshot s)

end Sys2Proof.Machine
end

