-- ==== Sys2Proof/Machine/PortRequests.lean ====
section
/-!
DEFINITION. The requests on a port's life and conditions: PORT_CONTROL (R53 to R55), CLEAR (R180) and RESUME (R59).
-/
namespace Sys2Proof.Machine

/-- The data of a carried-out PORT_CONTROL: state and epoch after the action (R53). -/
def portControlData (p : PortNo) (s : Part) : List Byte := bytesOf 1 (s.port p).portState.code ++ [(s.port p).epoch]

/-- Answer a PORT_CONTROL with the port's state and epoch after `f`; a port above 47 is refused (R53). -/
def portControl (c : Request) (f : PortNo → Part → Part) (s : Part) : Part :=
  if c.portGiven 0 then
    let s := f (c.port 0) s
    answer c .ok (portControlData (c.port 0) s) s
  else answer c .badValue [] s

/-- A new run of the port's stream: the epoch rises, the offsets and the trigger match positions return to 0 (R45, R53, R55,
R90). -/
def Port.newRun (x : Port) : Port :=
  { x with epoch := x.epoch + 1, streamOffset := 0, keyOffset := 0, matchPos := Vector.replicate 16 0 }

/-- ENABLE on a DISABLED port (R53). -/
def enablePort (p : PortNo) (s : Part) : Part := startPort p (s.modPort p Port.newRun)

def carryEnable (c : Request) (s : Part) : Part :=
  if c.portGiven 0 && (s.port (c.port 0)).running then answer c .badState [] s
  else portControl c enablePort s

def execPortControlEnable (s : State) : Host.Outcome State Fault Refusal :=
  done (takePartRequest (portControlRow 0) carryEnable s)

/-- DISABLE (R54). -/
def disablePort (p : PortNo) (s : Part) : Part := if (s.port p).running then stopPort p .portDisabled s else s

def execPortControlDisable (s : State) : Host.Outcome State Fault Refusal :=
  done (takePartRequest (portControlRow 1) (fun c s => portControl c disablePort s) s)

/-- What RESET clears beyond a stop: conditions, counters, the pattern record, the offsets, the port's staged entries; the
epoch rises (R55, R96, R175). -/
def Port.resetRecord (x : Port) : Port :=
  { x.newRun with conditions := 0, counters := .zero, pattern := none, staging := .empty }

/-- RESET (R55). -/
def resetPort (p : PortNo) (s : Part) : Part :=
  let ran := (s.port p).running
  let s := (stopPort p .portReset s).modPort p Port.resetRecord
  if ran then startPort p s else s

def execPortControlReset (s : State) : Host.Outcome State Fault Refusal :=
  done (takePartRequest (portControlRow 2) (fun c s => portControl c resetPort s) s)

/-! ### CLEAR (R180) -/

/-- A set of conditions in a reply (R188). -/
def conditionBytes (v : BitVec 10) : List Byte := bytesOf 2 v.toNat

def carryClear (c : Request) (s : Part) : Part :=
  if c.portGiven 0 then
    let p := c.port 0
    let before := (s.port p).conditions
    let after := before &&& ~~~(BitVec.ofNat 10 (numAt c.body 1 2))
    answer c .ok (conditionBytes before ++ conditionBytes after) (s.modPort p fun x => { x with conditions := after })
  else answer c .badValue [] s

def execClear (s : State) : Host.Outcome State Fault Refusal := done (takePartRequest clearRow carryClear s)

/-! ### RESUME (R59) -/

/-- The checks of R59, in order. -/
def resumeRefusal (c : Request) (s : Part) : Option ResultCode :=
  let x := s.port (c.port 0)
  if c.portGiven 0 = false then some .badValue
  else if c.configure = false ∧ c.mayOwn (c.port 0) = false then some .noRight
  else if x.portState ≠ .localHold then some .badState
  else if x.pendingLoad ≠ none then some .busy
  else if x.presence then some .localPresence
  else none

def carryResume (c : Request) (s : Part) : Part :=
  match resumeRefusal c s with
  | some code => answer c code [] s
  | none => answer c .ok [] (s.modPort (c.port 0) fun x => { x with portState := .active })

def execResume (s : State) : Host.Outcome State Fault Refusal := done (takePartRequest resumeRow carryResume s)

end Sys2Proof.Machine
end

