-- ==== Sys2Proof/Machine/StatusRequests.lean ====
section
/-!
DEFINITION. Requests that report and change nothing else: a frame of unknown kind (R5), IDENTIFY (R13), STATUS of the system,
a port and a session (R19, R139).
-/
namespace Sys2Proof.Machine

/-! ### Unknown kinds and IDENTIFY -/

/-- Peer matching comes first; a matched frame of unknown kind is answered BAD_FORMAT (R4, R5, R6). -/
def takeUnknownKind (s : State) : State :=
  match s.nextFrame with
  | none => s
  | some (f, k) =>
    if knownKind f.kind.toNat then s
    else
      match s.part.openRequest f k with
      | none => s.dropUnknown
      | some c =>
        let s := s.claim f k
        { s with part := answer c .badFormat [] s.part }

def execUnknownKindRequest (s : State) : Host.Outcome State Fault Refusal := done (takeUnknownKind s)

/-- The data of the IDENTIFY reply (R13, R188). DESIGN CHOICE (log 32): the part revision stands in one byte. -/
def identifyData (s : Part) : List Byte :=
  bytesOf 6 s.system.station.toNat ++ bytesOf 1 s.imageState.code ++ bytesOf 1 Config.partRevision
    ++ bytesOf 1 (commissioningCode s.commissioning)

/-- IDENTIFY is dispatched whatever its source (R6, R13). -/
def takeIdentify (s : State) : State :=
  match s.nextFrame with
  | none => s
  | some (f, k) =>
    if f.kind = kindIdentify then
      let s := s.claim f k
      let c := noRights f k
      { s with part := if f.body = [] then answer c .ok (identifyData s.part) s.part else answer c .badFormat [] s.part }
    else s

def execIdentify (s : State) : Host.Outcome State Fault Refusal := done (takeIdentify s)

/-! ### STATUS SYSTEM -/

/-- A 32-bit counter in a reply. -/
def counterBytes (c : Word32) : List Byte := bytesOf 4 c.toNat

/-- The receive and transmit counters in the order of R2 and R164. -/
def UplinkPort.counterData (u : UplinkPort) : List Byte :=
  counterBytes u.accepted ++ counterBytes u.rejected ++ counterBytes u.overflow ++ counterBytes u.unknownSource
    ++ counterBytes u.repliesSent ++ counterBytes u.noticesSent ++ counterBytes u.outputFramesSent
    ++ counterBytes u.tapFramesSent ++ counterBytes u.framesCut

/-- The data of the STATUS SYSTEM reply, in the order of R19 (log 31). -/
def statusSystemData (s : State) : List Byte :=
  bytesOf 6 s.part.system.station.toNat ++ bytesOf 1 s.uplink.link.code ++ bytesOf 1 s.part.imageState.code
    ++ bytesOf 1 (commissioningCode s.part.commissioning) ++ s.uplink.counterData ++ bytesOfInt s.uplink.level
    ++ bytesOf 2 s.part.freeList.length ++ bytesOf 2 s.part.sharedInUse ++ bytesOf 2 s.part.tapUse
    ++ bytesOf 2 s.part.sharedRefsUsed ++ bytesOf 2 s.part.slotsTaken ++ bytesOf 2 s.part.notices.length
    ++ yesNoByte s.part.noticesLost

def carryStatusSystem (c : Request) (s : State) : State := { s with part := answer c .ok (statusSystemData s) s.part }

def execStatusSystem (s : State) : Host.Outcome State Fault Refusal :=
  done (takeRequest (statusRow 0 .ignored) carryStatusSystem s)

/-! ### STATUS PORT -/

/-- The counters of a port in the order of R188. -/
def PortCounters.bytes (c : PortCounters) : List Byte :=
  counterBytes c.overrun ++ counterBytes c.errorsKept ++ counterBytes c.errorsDropped ++ counterBytes c.breaks
    ++ counterBytes c.historyYields ++ counterBytes c.admissionWaits ++ counterBytes c.patternMatches
    ++ counterBytes c.droppedCopies ++ counterBytes c.holdExpiries

/-- A pattern record: trigger and offset, 0xFF and 0 for none (R189; log 32). -/
def patternBytes (r : Option (TriggerNo × Word32)) : List Byte :=
  optByte (r.map fun t => t.1.val) ++ bytesOf 4 ((r.map fun t => t.2.toNat).getD 0)

/-- The data of the STATUS PORT reply, in the order of R19. -/
def statusPortData (p : PortNo) (s : Part) : List Byte :=
  let x := s.port p
  bytesOf 1 x.portState.code ++ [x.epoch] ++ bytesOf 4 x.streamOffset.toNat ++ bytesOf 4 x.keyOffset.toNat
    ++ bytesOf 2 x.conditions.toNat ++ x.counters.bytes ++ bytesOf 2 x.portUse ++ bytesOf 1 x.engine.pause.code
    ++ ownerByte (s.ownerOf p) ++ bytesOf 2 x.fifoSpace ++ bytesOf 2 x.blockQueue.length ++ bytesOf 2 x.chain.length
    ++ bytesOf 2 (s.chainCells p) ++ bytesOf 1 x.headHold.code ++ patternBytes x.pattern

def carryStatusPort (c : Request) (s : Part) : Part :=
  if c.portGiven 1 = false then answer c .badValue [] s
  else if c.configure = false ∧ c.mayUse (c.port 1) = false then answer c .noRight [] s
  else answer c .ok (statusPortData (c.port 1) s) s

def execStatusPort (s : State) : Host.Outcome State Fault Refusal :=
  done (takePartRequest (statusRow 1 .ignored) carryStatusPort s)

/-! ### STATUS SESSION -/

/-- The data of the STATUS SESSION reply, in the order of R139 (log 22). -/
def statusSessionData (n : SessionNo) (s : Part) : List Byte :=
  let x := s.session n
  let y := s.port x.port
  bytesOf 1 n.val ++ bytesOf 1 x.state.code ++ bytesOf 1 x.peer.val ++ bytesOf 2 x.tag.toNat ++ bytesOf 1 x.port.val
    ++ bytesOf 1 x.role.code ++ bytesOf 1 x.weight ++ bytesOf 2 x.queueLimit ++ bytesOf 2 x.idleTimeout
    ++ timeLeft x.idleTimer ++ timeLeft x.drainTimer ++ bytesOf 2 (s.queue (sessionQueue n)).length
    ++ bytesOf 4 x.nextOffset.toNat ++ bytesOf 4 x.gapBytes.toNat ++ bytesOf 4 x.keyBytes.toNat
    ++ bytesOf 2 x.keysDigest.toNat ++ bytesOf 2 x.outputDigest.toNat ++ yesNoByte x.attention
    ++ bytesOf 1 y.portState.code ++ [y.epoch] ++ ownerByte (s.ownerOf x.port)

def carryStatusSession (c : Request) (s : Part) : Part := answer c .ok (statusSessionData c.session s) s

def execStatusSession (s : State) : Host.Outcome State Fault Refusal :=
  done (takePartRequest (statusRow 2 .required) carryStatusSession s)

end Sys2Proof.Machine
end

