-- ==== Sys2Proof/Machine/TableRequests.lean ====
section
/-!
DEFINITION. LOAD and READ of the five tables (R9 to R12, R17, R18, R46 to R49, R92, R145, R146, R167).
-/
namespace Sys2Proof.Machine

/-! ### What every LOAD and READ shares -/

/-- The index of a LOAD or READ. -/
def Request.index (c : Request) : Nat := c.byte 1

/-- The record of a LOAD (R189). -/
def Request.record (c : Request) : List Byte := c.body.drop 2

/-- The first two checks of R17: the image state, and the index against the table's size. -/
def loadRefusal (c : Request) (size : Nat) (s : Part) : Option ResultCode :=
  if s.imageState = .saving then some .busy
  else if size ≤ c.index then some .badValue
  else none

/-- The result of a carried-out load (R17). -/
def loadCode (adjusted : Bool) : ResultCode := if adjusted then .adjusted else .ok

/-- A READ: the index first, then the right, then the data (R18). -/
def readEntry (c : Request) (inTable right : Bool) (data : List Byte) (s : Part) : Part :=
  if inTable = false then answer c .badValue [] s
  else if right = false then answer c .noRight [] s
  else answer c .ok data s

/-! ### PEER -/

def Request.peerIndex (c : Request) : PeerNo := Fin.ofNat 32 c.index

/-- Another index holds a valid entry with the same identity (R9). -/
def Part.identityTaken (s : Part) (i : PeerNo) (e : Peer) : Bool :=
  allPeers.any fun j => j != i && e.sameIdentity (s.peer j)

/-- The identity of the two entries is the same (R9). -/
def Peer.keepsIdentity (a b : Peer) : Bool := a.valid == b.valid && a.mac == b.mac && a.peerId == b.peerId

/-- Store a peer entry, and what follows from it (R9 to R12; log 27, 45, 56). -/
def storePeer (i : PeerNo) (e : Peer) (s : Part) : Part :=
  let old := s.peer i
  let s := s.setPeer i e
  let s :=
    if !old.valid && !e.valid then s
    else if old.keepsIdentity e then rightsChanged i old e s
    else identityChanged i old s
  recomputeCommissioning s

def carryLoadPeer (c : Request) (s : Part) : Part :=
  match loadRefusal c 32 s, Peer.ofBytes c.record with
  | some code, _ => answer c code [] s
  | none, none => answer c .badValue [] s
  | none, some e =>
    if s.identityTaken c.peerIndex e then answer c .badValue [] s
    else answer c .ok e.bytes (storePeer c.peerIndex e s)

def execLoadPeer (s : State) : Host.Outcome State Fault Refusal := done (takePartRequest (loadRow 0 20) carryLoadPeer s)

def carryReadPeer (c : Request) (s : Part) : Part :=
  readEntry c (decide (c.index < 32)) c.configure (s.peer c.peerIndex).bytes s

def execReadPeer (s : State) : Host.Outcome State Fault Refusal := done (takePartRequest (readRow 0) carryReadPeer s)

/-! ### PROFILE -/

/-- The port enters RECONFIG with its pending load; with its transmitter idle the load applies at that moment (R49). -/
def enterReconfig (p : PortNo) (e : Profile) (adjusted : Bool) (slot : SlotNo) (s : Part) : Part :=
  reconfigIdle p (s.modPort p fun x =>
    { x with portState := .reconfig, reconfigTimer := some Config.reconfigLimit,
             pendingLoad := some { entry := e, adjusted, slot, flushed := none } })

/-- A profile that passed its checks meets the state of its port (R46). -/
def loadProfile (c : Request) (p : PortNo) (e : Profile) (adjusted : Bool) (s : Part) : Part :=
  match (s.port p).portState with
  | .reconfig => answer c .busy [] s
  | .localHold => answer c .badState [] s
  | .disabled =>
    match accountingRefusal p e s with
    | some code => answer c code [] s
    | none => answer c (loadCode adjusted) (profileLoadData e none) (storeProfile p e s)
  | .active =>
    match accountingRefusal p e s with
    | some code => answer c code [] s
    | none => enterReconfig p e adjusted c.slot s

def carryLoadProfile (c : Request) (s : Part) : Part :=
  match loadRefusal c 48 s, Profile.ofBytes c.record with
  | some code, _ => answer c code [] s
  | none, none => answer c .badValue [] s
  | none, some (e, adjusted) => loadProfile c (c.port 1) e adjusted s

def execLoadProfile (s : State) : Host.Outcome State Fault Refusal :=
  done (takePartRequest (loadRow 1 40) carryLoadProfile s)

def carryReadProfile (c : Request) (s : Part) : Part :=
  let e := (s.port (c.port 1)).profile
  readEntry c (c.portGiven 1) (c.configure || c.mayUse (c.port 1)) (e.bytes ++ e.derivedBytes) s

def execReadProfile (s : State) : Host.Outcome State Fault Refusal := done (takePartRequest (readRow 1) carryReadProfile s)

/-! ### TRIGGER -/

def Request.triggerIndex (c : Request) : TriggerNo := Fin.ofNat 16 c.index

/-- Store a trigger; its match position returns to 0 on every port (R92). -/
def storeTrigger (t : TriggerNo) (e : Trigger) (s : Part) : Part :=
  { s with triggers := s.triggers.set t e
           ports := mapTable s.ports fun x => { x with matchPos := x.matchPos.set t 0 } }

def carryLoadTrigger (c : Request) (s : Part) : Part :=
  match loadRefusal c 16 s, Trigger.ofBytes c.record with
  | some code, _ => answer c code [] s
  | none, none => answer c .badValue [] s
  | none, some e => answer c .ok e.bytes (storeTrigger c.triggerIndex e s)

def execLoadTrigger (s : State) : Host.Outcome State Fault Refusal :=
  done (takePartRequest (loadRow 2 16) carryLoadTrigger s)

def carryReadTrigger (c : Request) (s : Part) : Part :=
  readEntry c (decide (c.index < 16)) c.configure (s.trigger c.triggerIndex).bytes s

def execReadTrigger (s : State) : Host.Outcome State Fault Refusal := done (takePartRequest (readRow 2) carryReadTrigger s)

/-! ### TAP -/

def Request.tapIndex (c : Request) : TapNo := Fin.ofNat 4 c.index

/-- Put an entry in the Tap Table, with its counters. -/
def putTap (t : TapNo) (e : TapEntry) (fresh : Bool) (s : Part) : Part :=
  s.modTap t fun x => { entry := e, counters := if fresh then .zero else x.counters }

/-- The load disables the tap: it was enabled and is not, or its collector changes (R146). -/
def TapEntry.loadDisables (old new : TapEntry) : Bool := old.enabled && (!new.enabled || old.collector != new.collector)

/-- The load begins the tap's counters afresh: it is newly enabled, or its collector changes (R146). -/
def TapEntry.loadRefreshes (old new : TapEntry) : Bool := new.enabled && (!old.enabled || old.collector != new.collector)

/-- What an accepted LOAD TAP does to the entry, the queue and the counters (R146). -/
def storeTap (t : TapNo) (e : TapEntry) (s : Part) : Part :=
  let old := (s.tap t).entry
  let s := if old.loadDisables e then disableTap t s else s
  let s := putTap t e (old.loadRefreshes e) s
  cutTapQueue t e.queueLimit (s.queue (tapQueue t)).length s

/-- The number of entries the load clears (R145, R147). -/
def Part.tapCleared (s : Part) (t : TapNo) (e : TapEntry) : Nat :=
  if (s.tap t).entry.loadDisables e then (s.queue (tapQueue t)).length else 0

def carryLoadTap (c : Request) (s : Part) : Part :=
  match loadRefusal c 4 s, TapEntry.ofBytes c.record with
  | some code, _ => answer c code [] s
  | none, none => answer c .badValue [] s
  | none, some (e, clamped) =>
    if e.enabled && !e.mayBeEnabled s.peers then answer c .badValue [] s
    else
      let cleared := s.tapCleared c.tapIndex e
      answer c (loadCode clamped) (e.bytes ++ bytesOf 2 cleared) (storeTap c.tapIndex e s)

def execLoadTap (s : State) : Host.Outcome State Fault Refusal := done (takePartRequest (loadRow 3 20) carryLoadTap s)

/-- The live state of a tap that READ TAP returns with its entry (R144). -/
def Part.tapLive (s : Part) (t : TapNo) : List Byte :=
  let k := (s.tap t).counters
  bytesOf 2 (s.queue (tapQueue t)).length ++ bytesOf 4 k.copiesQueued.toNat ++ bytesOf 4 k.copiesDropped.toNat
    ++ bytesOf 4 k.outputGap.toNat ++ bytesOf 4 k.keyGap.toNat

def carryReadTap (c : Request) (s : Part) : Part :=
  readEntry c (decide (c.index < 4)) c.configure ((s.tap c.tapIndex).entry.bytes ++ s.tapLive c.tapIndex) s

def execReadTap (s : State) : Host.Outcome State Fault Refusal := done (takePartRequest (readRow 3) carryReadTap s)

/-! ### SYSTEM -/

/-- The level within −burst and +burst (R162, R167). -/
def clampLevel (burst : Nat) (level : Int) : Int := max (-(burst : Int)) (min level burst)

/-- Store the system record; the level is clamped into the new burst (R167). -/
def storeSystem (e : SystemRecord) (s : State) : State :=
  { s with uplink := { s.uplink with level := clampLevel e.burst s.uplink.level }, part := { s.part with system := e } }

def carryLoadSystem (c : Request) (s : State) : State :=
  match loadRefusal c 256 s.part, SystemRecord.ofBytes c.record with
  | some code, _ => { s with part := answer c code [] s.part }
  | none, none => { s with part := answer c .badValue [] s.part }
  | none, some e =>
    let s := storeSystem e s
    { s with part := answer c .ok e.bytes s.part }

def execLoadSystem (s : State) : Host.Outcome State Fault Refusal := done (takeRequest (loadRow 4 12) carryLoadSystem s)

def carryReadSystem (c : Request) (s : Part) : Part := readEntry c true c.configure s.system.bytes s

def execReadSystem (s : State) : Host.Outcome State Fault Refusal := done (takePartRequest (readRow 4) carryReadSystem s)

end Sys2Proof.Machine
end

