-- ==== Sys2Proof/Machine/Dispatch.lean ====
section
/-! DEFINITION. One arm per command: the meaning of each row of spec/opcode_table.json. -/
namespace Sys2Proof.Machine

def exec (i : Instr) (s : State) : Host.Outcome State Fault Refusal :=
  match i with
  | .frameArrival frame goodFcs => Sys2Proof.Machine.execFrameArrival frame goodFcs s
  | .unknownKindRequest => Sys2Proof.Machine.execUnknownKindRequest s
  | .identify => Sys2Proof.Machine.execIdentify s
  | .attach => Sys2Proof.Machine.execAttach s
  | .detachNow => Sys2Proof.Machine.execDetachNow s
  | .detachFlush => Sys2Proof.Machine.execDetachFlush s
  | .keys => Sys2Proof.Machine.execKeys s
  | .take => Sys2Proof.Machine.execTake s
  | .yield => Sys2Proof.Machine.execYield s
  | .history => Sys2Proof.Machine.execHistory s
  | .digestReset => Sys2Proof.Machine.execDigestReset s
  | .attention => Sys2Proof.Machine.execAttention s
  | .signalBreak => Sys2Proof.Machine.execSignalBreak s
  | .signalAuxPulse => Sys2Proof.Machine.execSignalAuxPulse s
  | .signalDtrPulse => Sys2Proof.Machine.execSignalDtrPulse s
  | .stage => Sys2Proof.Machine.execStage s
  | .apply => Sys2Proof.Machine.execApply s
  | .snapshot => Sys2Proof.Machine.execSnapshot s
  | .portControlEnable => Sys2Proof.Machine.execPortControlEnable s
  | .portControlDisable => Sys2Proof.Machine.execPortControlDisable s
  | .portControlReset => Sys2Proof.Machine.execPortControlReset s
  | .clear => Sys2Proof.Machine.execClear s
  | .resume => Sys2Proof.Machine.execResume s
  | .loadPeer => Sys2Proof.Machine.execLoadPeer s
  | .loadProfile => Sys2Proof.Machine.execLoadProfile s
  | .loadTrigger => Sys2Proof.Machine.execLoadTrigger s
  | .loadTap => Sys2Proof.Machine.execLoadTap s
  | .loadSystem => Sys2Proof.Machine.execLoadSystem s
  | .readPeer => Sys2Proof.Machine.execReadPeer s
  | .readProfile => Sys2Proof.Machine.execReadProfile s
  | .readTrigger => Sys2Proof.Machine.execReadTrigger s
  | .readTap => Sys2Proof.Machine.execReadTap s
  | .readSystem => Sys2Proof.Machine.execReadSystem s
  | .statusSystem => Sys2Proof.Machine.execStatusSystem s
  | .statusPort => Sys2Proof.Machine.execStatusPort s
  | .statusSession => Sys2Proof.Machine.execStatusSession s
  | .save => Sys2Proof.Machine.execSave s
  | .restart => Sys2Proof.Machine.execRestart s
  | .saveWriteEnd readBack => Sys2Proof.Machine.execSaveWriteEnd readBack s
  | .saveTimeout => Sys2Proof.Machine.execSaveTimeout s
  | .powerOn commissioningStrap addressStraps flash => Sys2Proof.Machine.execPowerOn commissioningStrap addressStraps flash s
  | .pinReset commissioningStrap addressStraps flash => Sys2Proof.Machine.execPinReset commissioningStrap addressStraps flash s
  | .txCharacterComplete port => Sys2Proof.Machine.execTxCharacterComplete port s
  | .rxCharacterComplete port sample => Sys2Proof.Machine.execRxCharacterComplete port sample s
  | .ctsChange port asserted => Sys2Proof.Machine.execCtsChange port asserted s
  | .dsrChange port asserted => Sys2Proof.Machine.execDsrChange port asserted s
  | .dsrDebounceExpiry port => Sys2Proof.Machine.execDsrDebounceExpiry port s
  | .reconfigTimerExpiry port => Sys2Proof.Machine.execReconfigTimerExpiry port s
  | .idleGapExpiry port => Sys2Proof.Machine.execIdleGapExpiry port s
  | .fanoutServe => Sys2Proof.Machine.execFanoutServe s
  | .holdTimerExpiry port => Sys2Proof.Machine.execHoldTimerExpiry port s
  | .sessionIdleTimeout session => Sys2Proof.Machine.execSessionIdleTimeout session s
  | .drainTimerExpiry session => Sys2Proof.Machine.execDrainTimerExpiry session s
  | .dataFrameBegin => Sys2Proof.Machine.execDataFrameBegin s
  | .dataFrameComplete => Sys2Proof.Machine.execDataFrameComplete s
  | .controlFrameBegin => Sys2Proof.Machine.execControlFrameBegin s
  | .replyComplete => Sys2Proof.Machine.execReplyComplete s
  | .noticeComplete => Sys2Proof.Machine.execNoticeComplete s
  | .shaperTokenRise => Sys2Proof.Machine.execShaperTokenRise s
  | .linkDown => Sys2Proof.Machine.execLinkDown s
  | .linkUp => Sys2Proof.Machine.execLinkUp s
  | .breakSpaceExpiry port => Sys2Proof.Machine.execBreakSpaceExpiry port s
  | .breakMarkExpiry port => Sys2Proof.Machine.execBreakMarkExpiry port s
  | .pulseExpiry port => Sys2Proof.Machine.execPulseExpiry port s
  | .rxdReturnToMark port => Sys2Proof.Machine.execRxdReturnToMark port s
  | .startBitNoise port => Sys2Proof.Machine.execStartBitNoise port s

end Sys2Proof.Machine
end

