-- ==== Sys2Proof/Machine/Tick.lean ====
section
/-!
DEFINITION. One millisecond of idling: every millisecond timer runs down by one and a signal's elapsed time rises (R44, R56,
R103, R118, R170, R185; log 1, 34). A timer at 0 waits for its expiry command.
-/
namespace Sys2Proof.Machine

/-- A timer one millisecond later. -/
def runDown (timer : Option Nat) : Option Nat := timer.map fun n => n - 1

/-- A signal one millisecond later: SPACE and ON count, up to the duration (R170, R172). -/
def Signal.tick (g : Signal) : Signal :=
  match g.phase with
  | .space => { g with elapsed := min g.duration (g.elapsed + 1) }
  | .on => { g with elapsed := min g.duration (g.elapsed + 1) }
  | .waiting => g
  | .mark _ => g

def Port.tick (x : Port) : Port :=
  { x with reconfigTimer := runDown x.reconfigTimer, debounceTimer := runDown x.debounceTimer
           holdTimer := runDown x.holdTimer, signal := x.signal.map Signal.tick }

def Session.tick (x : Session) : Session :=
  { x with idleTimer := runDown x.idleTimer, drainTimer := runDown x.drainTimer }

def Part.tick (s : Part) : Part :=
  { s with ports := mapTable s.ports Port.tick, sessions := mapTable s.sessions Session.tick
           save := s.save.map fun j => { j with timer := j.timer - 1 } }

/-- What the block does while no command waits. -/
def idleTick (s : State) : State := { s with part := s.part.tick }

end Sys2Proof.Machine
end

