-- ==== Sys2Proof/Safety.lean ====
section
/-!
DEFINITION. What every reachable state keeps: the canonical form of the memory, and the bounds the manual sets on the shaper and
on the stores of fixed size, and what the manual says of owners, reply slots, cells and tables.
-/
namespace Sys2Proof.Machine

/-- The Cell Store's bytes are in canonical form. -/
def State.memoryCanonical (s : State) : Prop := Memory.wf s.part.mem

/-- The shaper level stays within −burst and +burst (R162, R163). -/
def State.levelBounded (s : State) : Prop :=
  -(s.part.system.burst : Int) ≤ s.uplink.level ∧ s.uplink.level ≤ s.part.system.burst

/-- The Receive FIFO holds at most 16 frames (R3). -/
def State.receiveFits (s : State) : Prop := s.uplink.rxFifo.length ≤ Config.rxFifoPlaces

/-- The Notice Queue holds at most 32 notices (R181). -/
def State.noticesFit (s : State) : Prop := s.part.notices.length ≤ Config.noticePlaces

/-- Every Transmit FIFO holds at most 512 bytes (R20). -/
def State.keysFit (s : State) : Prop := ∀ p : PortNo, (s.part.port p).engine.fifo.length ≤ Config.txFifoSize

/-- Who may hold a reserved reply slot: a DETACH FLUSH of a session, a signal or a waiting profile load of a port, a SAVE
(R14). -/
inductive SlotHolder where
  | drain (n : SessionNo)
  | signal (p : PortNo)
  | load (p : PortNo)
  | save
  deriving DecidableEq, Repr

/-- The slot that a delayed reply has reserved. -/
def Part.slotOf (s : Part) : SlotHolder → Option SlotNo
  | .drain n => (s.session n).drainSlot
  | .signal p => (s.port p).signal.map Signal.slot
  | .load p => (s.port p).pendingLoad.map PendingLoad.slot
  | .save => s.save.map SaveJob.slot

/-- The slot holds a formed reply. -/
def Part.isFormed (s : Part) (k : SlotNo) : Prop := ∃ h code data, s.slot k = .formed h code data

/-- Every slot a delayed reply waits in is reserved for it alone, and the reply in transmission is a formed one (R14). -/
structure State.slotsHeld (s : State) : Prop where
  reserved : ∀ h k, s.part.slotOf h = some k → ∃ r, s.part.slot k = .reserved r
  once : ∀ h h' k, s.part.slotOf h = some k → s.part.slotOf h' = some k → h = h'
  sent : ∀ k frame cut, s.part.transmission = some ⟨.reply k, frame, cut⟩ → s.part.isFormed k

/-- The formed replies wait in one order, each once (R14). -/
structure State.repliesOnce (s : State) : Prop where
  nodup : s.part.formed.Nodup
  formed : ∀ k, k ∈ s.part.formed ↔ s.part.isFormed k

/-- An existing session's port is not DISABLED, no port has two owners, and a port in LOCAL_HOLD has none (R54, R57, R120). -/
structure State.portsOwned (s : State) : Prop where
  runs : ∀ n, (s.part.session n).state ≠ .free → (s.part.port (s.part.session n).port).portState ≠ .disabled
  once : ∀ n m p, s.part.owns n p = true → s.part.owns m p = true → n = m
  held : ∀ n p, (s.part.port p).portState = .localHold → s.part.owns n p = false

/-- Every cell of the Cell Store: the free ones, and those of the blocks in turn. -/
def Part.cellsListed (s : Part) : List Nat := s.freeList ++ s.blocks.flatMap Block.cells

/-- No cell is both free and in a block, in two blocks, or twice in one; a block is named by its first cell (R61, R62). -/
structure State.cellsOnce (s : State) : Prop where
  nodup : s.part.cellsListed.Nodup
  inRange : ∀ c ∈ s.part.cellsListed, c < Config.cellCount
  named : ∀ b ∈ s.part.blocks, b.cells.head? = some b.id

/-- The free cells and the cells of all blocks number 4,096 (R61). -/
def State.cellsConserved (s : State) : Prop := s.part.cellsListed.length = Config.cellCount

/-- The tables keep what their loads and the image check allow: the fields of R42, R43 and R167 in their ranges, no identity
twice, the reserves within 2,048 cells, no usable trigger or enabled tap with values outside its sets, no enabled tap toward an
entry that may not collect (R8, R10, R11, R43, R91, R143, R145, R167). -/
structure Tables.allowed (t : Tables) : Prop where
  system : SystemRecord.ofBytes t.system.bytes = some t.system
  identities : ∀ i j : PeerNo, i ≠ j → Peer.sameIdentity t.peers[i] t.peers[j] = false
  profiles : ∀ p : PortNo, (Profile.ofBytes (t.profiles[p]).bytes).map Prod.fst = some t.profiles[p]
  reserves : (t.profiles.toList.map Profile.reserve).sum ≤ 2048
  triggers : ∀ k : TriggerNo, Trigger.ofImage (t.triggers[k]).bytes = t.triggers[k]
  taps : ∀ k : TapNo, TapEntry.ofImage (t.taps[k]).bytes t.peers = t.taps[k]

/-- The tables in effect are allowed ones, and so is the entry of every profile load that waits (R43, R46). -/
structure State.tablesAllowed (s : State) : Prop where
  tables : s.part.tables.allowed
  waiting : ∀ p l, (s.part.port p).pendingLoad = some l → (Profile.ofBytes l.entry.bytes).map Prod.fst = some l.entry

end Sys2Proof.Machine
end

