-- ==== Sys2Proof/Certificates/Slice0/Obligations.lean ====
section
/-!
DEFINITION. The statements for the provers, one Prop each, in the order of OBLIGATIONS.json. The vocabulary they share comes
first. Statements of a command's effect are about every state; where one could fail only in states that no run reaches, it
takes an invariant of Sys2Proof/Safety.lean as a hypothesis, and that invariant is a statement of its own.
-/
namespace Sys2Proof.Claims
open Sys2Proof.Machine

/-! ### Outcomes -/

/-- The command answers a next state: a state `u` with the given property, and then the arbiter's and the Scheduler's
choices, which change nothing else (stated in CommandsCompleteAndKeepTheQueue). -/
def Ends (i : Instr) (s : State) (P : State → Prop) : Prop := ∃ u, exec i s = .next (settle u) ∧ P u

/-- The command answers the next state in which the part stands as given and all else is as it was. -/
def EndsPart (i : Instr) (s : State) (e : Part) : Prop := exec i s = .next (settle { s with part := e })

/-! ### Requests -/

/-- The head frame `f` of the Receive FIFO is of the row, slot `k` (log 13) is free for its reply, and it passes the Decoder's
checks as the request `c` (R4 to R7). -/
structure Passes (s : State) (r : RequestRow) (f : RelayFrame) (k : SlotNo) (c : Request) : Prop where
  taken : s.nextFrame = some (f, k)
  row : r.takes f = true
  peer : s.part.openRequest f k = some c
  checks : s.part.decoderRefusal r f c = none

/-- The part once the session check has passed: the idle timer of the session named has restarted (R7). -/
def begun (s : State) (r : RequestRow) (c : Request) : Part := touchNamed r.session c s.part

/-- The frame has left the Receive FIFO, its reply stands formed in slot `k` behind the replies formed before, and no other
slot, no waiting command and nothing else of the Uplink Port has changed (R4, R14). -/
structure Replies (s u : State) (f : RelayFrame) (k : SlotNo) (code : ResultCode) (data : List Byte) : Prop where
  pending : u.pending = s.pending
  uplink : u.uplink = { s.uplink with rxFifo := s.uplink.rxFifo.tail }
  slot : u.part.slot k = .formed f.header code data
  others : ∀ j, j ≠ k → u.part.slot j = s.part.slot j
  formed : u.part.formed = s.part.formed ++ [k]

/-- The frame has left the Receive FIFO and slot `k` is reserved for its reply (R14). -/
structure Reserves (s u : State) (f : RelayFrame) (k : SlotNo) : Prop where
  pending : u.pending = s.pending
  uplink : u.uplink = { s.uplink with rxFifo := s.uplink.rxFifo.tail }
  slot : u.part.slot k = .reserved f.header
  others : ∀ j, j ≠ k → u.part.slot j = s.part.slot j
  formed : u.part.formed = s.part.formed

/-- Apart from the Reply Queue, the part stands exactly as given. -/
def Leaves (u : State) (e : Part) : Prop := u.part = { e with slots := u.part.slots, formed := u.part.formed }

/-- The command answers the request with this result and these data, and apart from the Reply Queue leaves the part as given. -/
def Answers (i : Instr) (s : State) (f : RelayFrame) (k : SlotNo) (code : ResultCode) (data : List Byte) (e : Part) : Prop :=
  Ends i s fun u => Replies s u f k code data ∧ Leaves u e

/-- The request rows that are matched to a peer, each with what the Decoder knows of it (R5). -/
def requestRows : List (Instr × RequestRow) :=
  [(.attach, attachRow), (.detachNow, detachRow 0), (.detachFlush, detachRow 1), (.keys, keysRow), (.take, takeRow),
   (.yield, yieldRow), (.history, historyRow), (.digestReset, digestResetRow), (.attention, attentionRow),
   (.signalBreak, signalRow 0), (.signalAuxPulse, signalRow 1), (.signalDtrPulse, signalRow 2), (.stage, stageRow),
   (.apply, applyRow), (.snapshot, snapshotRow), (.portControlEnable, portControlRow 0),
   (.portControlDisable, portControlRow 1), (.portControlReset, portControlRow 2), (.clear, clearRow), (.resume, resumeRow),
   (.loadPeer, loadRow 0 20), (.loadProfile, loadRow 1 40), (.loadTrigger, loadRow 2 16), (.loadTap, loadRow 3 20),
   (.loadSystem, loadRow 4 12), (.readPeer, readRow 0), (.readProfile, readRow 1), (.readTrigger, readRow 2),
   (.readTap, readRow 3), (.readSystem, readRow 4), (.statusSystem, statusRow 0 .ignored),
   (.statusPort, statusRow 1 .ignored), (.statusSession, statusRow 2 .required), (.save, saveRow), (.restart, restartRow)]

/-! ### Frames of the cascades -/

/-- What releasing holds and retrying waiting ports leave of a port: everything but its assembly, its account, its pause with
what follows from it, its conditions and its counters. -/
structure PortStands (x y : Port) : Prop where
  profile : y.profile = x.profile
  portState : y.portState = x.portState
  epoch : y.epoch = x.epoch
  keyOffset : y.keyOffset = x.keyOffset
  pendingLoad : y.pendingLoad = x.pendingLoad
  reconfigTimer : y.reconfigTimer = x.reconfigTimer
  dsrDebounced : y.dsrDebounced = x.dsrDebounced
  debounceTimer : y.debounceTimer = x.debounceTimer
  pins : y.pins = x.pins
  staging : y.staging = x.staging
  signal : y.signal = x.signal
  lastSnap : y.lastSnap = x.lastSnap
  receiver : y.engine.receiver = x.engine.receiver
  consoleStopped : y.engine.consoleStopped = x.engine.consoleStopped
  head : y.headHold = x.headHold ∨ (x.headHold = .held ∧ y.headHold = .retry)
  holdTimer : y.holdTimer = x.holdTimer

/-- What releasing holds and retrying waiting ports leave of the part. -/
structure PartStands (s t : Part) : Prop where
  peers : t.peers = s.peers
  triggers : t.triggers = s.triggers
  taps : t.taps = s.taps
  system : t.system = s.system
  commissioning : t.commissioning = s.commissioning
  straps : t.commissioningStrap = s.commissioningStrap ∧ t.addressStraps = s.addressStraps
  turn : t.lastServed = s.lastServed ∧ t.curQueue = s.curQueue ∧ t.framesLeft = s.framesLeft ∧ t.lastControl = s.lastControl
  image : t.imageState = s.imageState ∧ t.flash = s.flash ∧ t.save = s.save
  memory : s.waitList = [] → t.mem = s.mem

/-! ### What reset leaves -/

/-- The Line Engine after reset: the last column of R20. -/
def engineAtStart : Engine :=
  { fifo := [], shift := .empty, pendingFlow := none, lastFlow := .xon, consoleStopped := false, pause := .released
    receiver := .waitMark, slot := none }

/-- The entry of the Port Profile Table without an image: the Default column of R42, with the derived fields it names. -/
def profileAtStart : Profile :=
  { enabled := false, rate := 9600, dataBits := 8, parity := .noParity, stopBits := 1, flow := .noFlow, errorPolicy := .keep
    presenceSource := .noSource, rtsControl := .auto, dtrControl := .auto, auxControl := .auto, auxUse := .noUse, auxLevel := .high
    auxPulse := 500, breakPolicy := .refuse, reserve := 8, shareLimit := 56, pauseOn := 56, pauseOff := 40, historyLimit := 32
    blockLimit := 256, idleGap := 4, triggerSet := 0, mode := .drop, holdLimit := 5, pressureThreshold := 0, pressureCopies := 8
    noticeMask := 0, d8 := 1536, achieved := 9600, rateError := 0, charBits := 10 }

/-- A port of entry `e` after reset, before it starts (R20, R44, R60, R65, R81, R82, R97, R169, R170, R175, R177, R178). That its pins
rest is the model's choice (log 9). -/
def portAtStart (e : Profile) : Port :=
  { profile := e, portState := .disabled, epoch := 0, streamOffset := 0, keyOffset := 0, pendingLoad := none, reconfigTimer := none
    dsrDebounced := false, debounceTimer := none, pins := { rxd := true, cts := false, dsr := false }, engine := engineAtStart
    counters := { overrun := 0, errorsKept := 0, errorsDropped := 0, breaks := 0, historyYields := 0, admissionWaits := 0
                  patternMatches := 0, droppedCopies := 0, holdExpiries := 0 }
    portUse := 0, openBlock := none, gapTimer := none, matchPos := Vector.replicate 16 0, pattern := none, blockQueue := []
    headHold := .noHold, holdTimer := none, chain := [], conditions := 0
    lines := { rts := .deassert, dtr := .deassert, aux := .deassert }, staging := { rts := none, dtr := none, aux := none }
    signal := none, lastSnap := { rxd := true, cts := false, dsr := false } }

/-- The Uplink Port after reset, its link as given: empty, its counters 0, the level at +burst (R3, R162, R164). -/
def uplinkAtStart (link : Link) (burst : Nat) : UplinkPort :=
  { link, rxFifo := [], accepted := 0, rejected := 0, overflow := 0, unknownSource := 0, repliesSent := 0, noticesSent := 0
    outputFramesSent := 0, tapFramesSent := 0, framesCut := 0, level := burst }

/-! ### What follows from an account -/

/-- The Line Drive Record that R169 gives a port that is not DISABLED: an AUTO line has its value, a MANUAL line stands. -/
def linesOf (x : Port) : LineDrive :=
  { rts := if x.profile.rtsControl = .auto then
             (if x.profile.flow = .hard ∧ x.engine.pause = .asserted then .deassert else .assert) else x.lines.rts
    dtr := if x.profile.dtrControl = .auto then (if x.signalIs .dtrPulse then .deassert else .assert) else x.lines.dtr
    aux := if x.profile.auxControl = .auto then (if x.signalIs .auxPulse then .assert else .deassert) else x.lines.aux }

/-- The port once its pause has been evaluated against its account as it stands (R35 to R37): RELEASED with at least pause on in
use it becomes ASSERTED and PAUSE is set, ASSERTED with at most pause off in use it becomes RELEASED, and otherwise nothing changes.
As it changes, under flow SOFT the XOFF or XON it asks for is pending, none if that was sent last; RTS follows it under flow HARD;
and the transmitter loads what it may (R23). A stopped engine evaluates nothing (R21). -/
def paused (x : Port) : Port :=
  let released := x.engine.pause = .released
  let turns := if released then x.profile.pauseOn ≤ x.portUse else x.portUse ≤ x.profile.pauseOff
  let asks : FlowChar := if released then .xoff else .xon
  let y := { x with
    engine := { x.engine with
      pause := if released then .asserted else .released
      pendingFlow :=
        if x.profile.flow = FlowMode.soft then (if x.engine.lastFlow = asks then none else some asks) else x.engine.pendingFlow }
    conditions := if released then x.conditions ||| Condition.pause.bit else x.conditions }
  if x.portState ≠ .disabled ∧ turns then Port.load { y with lines := linesOf y } else x

/-- Each block `id` has lost `count id` holds (R63, R64, R69, R77), from part `s` to part `t`: one whose last hold went is freed, its
cells on the tail of the free list and out of the account that carried them, and every other block stands. -/
structure HoldsGone (count : Nat → Nat) (s t : Part) : Prop where
  released : ∀ id b, s.block id = some b →
    (count id = 0 → t.block id = some b) ∧
    (0 < count id → count id < b.refCount → t.block id = some { b with refCount := b.refCount - count id }) ∧
    (0 < count id → b.refCount ≤ count id → t.block id = none)
  freed : ∃ freed : List Block, (freed.map Block.id).Nodup ∧
    (∀ b, b ∈ freed ↔ (s.block b.id = some b ∧ 0 < count b.id ∧ b.refCount ≤ count b.id)) ∧
    t.freeList = s.freeList ++ freed.flatMap Block.cells ∧
    t.tapUse = s.tapUse - ((freed.filter fun b => b.kind == .keys).map fun b => b.cells.length).sum ∧
    ∀ q, (t.port q).portUse = (s.port q).portUse -
      ((freed.filter fun b => b.kind == .output && b.port == q).map fun b => b.cells.length).sum

/-- Block `b` has been freed, from part `s` to part `t` (R64): its record is gone, its cells stand on the tail of the free list, the
account that carried them has fallen by their number, and, for an OUTPUT block, its port's pause has been evaluated once. -/
structure BlockFreed (b : Block) (s t : Part) : Prop where
  record : t.block b.id = none ∧ ∀ id, id ≠ b.id → t.block id = s.block id
  cells : t.freeList = s.freeList ++ b.cells
  keys : b.kind = .keys → t.tapUse = s.tapUse - b.cells.length ∧ t.ports = s.ports
  output : b.kind = .output → t.tapUse = s.tapUse ∧
    t.port b.port = paused { s.port b.port with portUse := (s.port b.port).portUse - b.cells.length } ∧
    ∀ q, q ≠ b.port → t.port q = s.port q
  rest : t = { s with blocks := t.blocks, freeList := t.freeList, tapUse := t.tapUse, ports := t.ports
                      notices := t.notices, noticesLost := t.noticesLost, walkDue := t.walkDue }

/-- shared_in_use (R65). -/
def sharedUse (s : Part) : Nat := (s.ports.toList.map fun y => y.portUse - y.profile.reserve).sum

/-- Every port on the Admission Wait List holds a byte that begins a block, has no history to yield and follows no trigger. -/
def BeginnersWait (s : Part) : Prop :=
  s.walkDue = false ∧ ∀ q ∈ s.waitList, let x := s.port q
    x.engine.slot ≠ none ∧ x.openBlock = none ∧ x.chain = [] ∧ x.profile.triggerSet = 0 ∧ x.profile.blockLimit ≠ 1

/-- One retry of port p (R71), for such a port: if it is on the wait list and R68 admits a cell, from its reserve or within its share from
the shared pool, the head of the free list begins a new block with its held byte, the byte takes the next stream offset, the account
rises by one, the pause is evaluated against it, and the port leaves the list. Otherwise nothing changes. -/
def cellOffered (s : Part) (p : PortNo) : Part :=
  let x := s.port p
  let reserves := (s.ports.toList.map fun y => y.profile.reserve).sum
  let admitted := p ∈ s.waitList ∧ (x.portUse < x.profile.reserve ∨
    (x.portUse - x.profile.reserve < x.profile.shareLimit ∧ sharedUse s < 4032 - reserves))
  match s.freeList, x.engine.slot with
  | c :: rest, some byte =>
    if admitted then
      { s.setPort p (paused { x with
          portUse := x.portUse + 1, streamOffset := x.streamOffset + 1, openBlock := some c
          gapTimer := some (x.gapTimer.getD (x.profile.idleGap * x.profile.charBits * (2 * x.profile.d8)))
          engine := { x.engine with slot := none } }) with
        freeList := rest, waitList := s.waitList.filter (· ≠ p), mem := Memory.write s.mem (64 * c) byte
        blocks := s.blocks ++
          [{ id := c, kind := .output, port := p, epoch := x.epoch, start := x.streamOffset, length := 1, cells := [c], marks := 0
             closeReason := none, sender := none, refCount := 1 }] }
    else s
  | [], _ => s
  | _ :: _, none => s

/-- The retries that follow the freeing of block `b`, which led from part `s` to part `t` (R71): first its origin port; then, if
shared_in_use fell with it, every port on the wait list from the oldest entry to the newest, once. -/
def retriesAfter (b : Block) (s t : Part) : Part :=
  let own := cellOffered t b.port
  { if sharedUse t < sharedUse s then own.waitList.foldl cellOffered own else own with walkDue := false }

/-- A byte as TXD carries it in the format of entry `e`, true at mark (R23, R30): the start bit at space, the data bits least significant
first, under parity the bit that makes the number of ones even or odd, and the stop bits at mark. -/
def asSent (e : Profile) (v : Byte) : List Bool :=
  let data := (List.range e.dataBits).map fun k => v.getLsbD k
  let ones := data.count true
  false :: data ++ (match e.parity with | .noParity => [] | .even => [decide (ones % 2 = 1)] | .odd => [decide (ones % 2 = 0)])
    ++ List.replicate e.stopBits true

/-- A HELD head becomes RETRY (R104). -/
def retried (x : Port) : Port := if x.headHold = .held then { x with headHold := .retry } else x

end Sys2Proof.Claims

open Sys2Proof Sys2Proof.Machine Sys2Proof.Claims

/-! ### The machine -/

/-- A step takes the command at the front of the queue and runs it on the rest. -/
def Obligations.StepRunsFrontCommand : Prop :=
  ∀ (c : Instr) (rest : List Instr) (s : State), step { s with pending := c :: rest } = exec c { s with pending := rest }

/-- On an empty queue a step is one millisecond (log 1, the model's choice): the RECONFIG, debounce, hold, idle and drain timers
and the SAVE limit run down by one, a signal in SPACE or ON counts one towards its duration, and nothing else changes. -/
def Obligations.EmptyQueueIsOneMillisecond : Prop :=
  ∀ s : State, s.pending = [] → ∃ t, step s = .next t ∧ t.pending = [] ∧ t.uplink = s.uplink ∧
    (∀ p, t.part.port p = { s.part.port p with
      reconfigTimer := (s.part.port p).reconfigTimer.map (· - 1)
      debounceTimer := (s.part.port p).debounceTimer.map (· - 1)
      holdTimer := (s.part.port p).holdTimer.map (· - 1)
      signal := (s.part.port p).signal.map fun g =>
        if g.phase = .space ∨ g.phase = .on then { g with elapsed := min g.duration (g.elapsed + 1) } else g }) ∧
    (∀ n, t.part.session n = { s.part.session n with
      idleTimer := (s.part.session n).idleTimer.map (· - 1)
      drainTimer := (s.part.session n).drainTimer.map (· - 1) }) ∧
    t.part = { s.part with
      ports := t.part.ports, sessions := t.part.sessions
      save := s.part.save.map fun j => { j with timer := j.timer - 1 } }

/-- Every command completes: it answers a next state, whatever the state it meets, and leaves the other waiting commands as
they wait. What ends every command (the arbiter's choice and the Scheduler's naming) changes the choice, the current queue and
the frames left, and nothing else. That both choices are made at the end of every command is the model's reading (log 11). -/
def Obligations.CommandsCompleteAndKeepTheQueue : Prop :=
  (∀ (c : Instr) (s : State), ∃ t, exec c s = .next t ∧ t.pending = s.pending) ∧
  ∀ s : State, settle s = { s with part := { s.part with
    chosen := (settle s).part.chosen, curQueue := (settle s).part.curQueue, framesLeft := (settle s).part.framesLeft } }

/-- After reset the stores are empty and every register has the value the rules give it (R3, R8, R14, R20, R42, R44, R61, R65, R75, R81,
R82, R91, R97, R118, R143, R144, R155, R162, R164, R167 to R170, R175, R177, R178, R181, R184). That the link is up, the straps are low, the
pins rest and the flash holds nothing readable, and so the part has no image, is the model's choice (log 7, 8, 9), and so is the memory that lists
nothing, each unwritten byte of a cell reading as 0 (log 6); that no walk of the wait list is due is the model's own flag (log 29). -/
def Obligations.ResetLeavesEmptyStores : Prop :=
  let s := State.reset.part
  (State.reset.pending = [] ∧ State.reset.uplink = uplinkAtStart .up 15180) ∧
  ((∀ k, s.slot k = .free) ∧ s.formed = []) ∧
  (∀ i, s.peer i = { valid := false, mac := 0, peerId := 0, mask := 0, maxRole := .observe, signalRight := .noSignal
                     configure := false, supervisor := false, collector := false }) ∧
  (∀ t, s.trigger t = { valid := false, length := 0, pattern := Vector.replicate 12 0, actions := 0, markGroup := 0 }) ∧
  (∀ t, s.tap t =
    { entry := { enabled := false, collector := 0, direction := .output, portMask := 0, peerFilter := none, markedOnly := .no
                 groupMask := 0, weight := 1, queueLimit := 4 }
      counters := { copiesQueued := 0, copiesDropped := 0, outputGap := 0, keyGap := 0 } }) ∧
  s.system = { station := 0x024E4B000000, rate := 1250, burst := 15180, supervisor := none } ∧
  (s.commissioningStrap = false ∧ s.addressStraps = 0 ∧ s.commissioning = false) ∧
  (∀ p, s.port p = portAtStart profileAtStart) ∧
  (∀ n, s.session n =
    { state := .free, peer := 0, tag := 0, port := 0, role := .observer, weight := 1, queueLimit := 4, idleTimeout := 0
      idleTimer := none, nextOffset := 0, gapBytes := 0, keysDigest := 0xFFFF, outputDigest := 0xFFFF, keyBytes := 0
      attention := false, drainTimer := none, drainSlot := none }) ∧
  (s.mem = [] ∧ s.freeList = List.range 4096 ∧ s.blocks = [] ∧ s.tapUse = 0 ∧ s.waitList = [] ∧ s.walkDue = false) ∧
  ((∀ q, s.queue q = []) ∧ s.lastServed = 47) ∧
  (s.curQueue = 67 ∧ s.framesLeft = 0 ∧ s.transmission = none ∧ s.lastControl = .notice ∧ s.chosen = none) ∧
  (s.notices = [] ∧ s.noticesLost = false) ∧
  (s.imageState = .noImage ∧ s.flash = none ∧ s.save = none)

/-- The state after reset meets every invariant that the steps keep. -/
def Obligations.ResetMeetsTheInvariants : Prop :=
  State.reset.memoryCanonical ∧ State.reset.levelBounded ∧ State.reset.receiveFits ∧ State.reset.noticesFit ∧
  State.reset.keysFit ∧ State.reset.portsOwned ∧ State.reset.slotsHeld ∧ State.reset.repliesOnce ∧ State.reset.cellsOnce ∧
  State.reset.cellsConserved ∧ State.reset.tablesAllowed

/-! ### What every step keeps -/

/-- The memory of the Cell Store keeps its canonical form, the shaper level stays within −burst and +burst whatever the settings
become (R162, R163, R167), and the Receive FIFO, the Notice Queue and every Transmit FIFO stay within their places (R3, R20,
R181). -/
def Obligations.StoresAndLevelStayWithinBounds : Prop :=
  ∀ s t : State, step s = .next t →
    (s.memoryCanonical → t.memoryCanonical) ∧ (s.levelBounded → t.levelBounded) ∧
    (s.receiveFits → t.receiveFits) ∧ (s.noticesFit → t.noticesFit) ∧ (s.keysFit → t.keysFit)

/-- The ownership law of R120: a port has at most one owner, a DISABLED port no session and a port in LOCAL_HOLD no owner. -/
def Obligations.PortsKeepOneOwner : Prop :=
  ∀ s t : State, s.portsOwned → step s = .next t → t.portsOwned

/-- Each delayed reply keeps a reserved slot of its own until it is formed, and the formed replies stand in one order, each once
(R14). -/
def Obligations.RepliesKeepTheirSlots : Prop :=
  ∀ s t : State, step s = .next t → (s.slotsHeld → t.slotsHeld) ∧ (s.slotsHeld → s.repliesOnce → t.repliesOnce)

/-- No cell comes to stand both free and in a block, in two blocks, or twice in one, and none is lost: the free cells and the
cells of all blocks go on numbering 4,096, so that each stands in exactly one place (R61, R62, R64). That a block is named by its
first cell, which cellsOnce also keeps, is the model's choice (log 12). -/
def Obligations.CellsStandOnce : Prop :=
  ∀ s t : State, s.cellsOnce → step s = .next t → t.cellsOnce ∧ (s.cellsConserved → t.cellsConserved)

/-- The tables in effect stay such as their loads and the image check allow, and with them every enabled tap's collector, so that
the image SAVE writes of them passes the check (R8, R10, R11, R43, R91, R143, R145, R167). -/
def Obligations.TablesStayAllowed : Prop :=
  ∀ s t : State, s.tablesAllowed → step s = .next t → t.tablesAllowed

/-! ### What only some commands change -/

/-- The shaper level moves only where the rules name it: a data or control frame that begins, a rise, LOAD SYSTEM, RESTART,
power-on and pin reset (R162, R167). A port's epoch stands, or rises by one at ENABLE, RESET and RESTART, or is 0 after power-on
and pin reset (R45). The Peer Table changes only by LOAD PEER and the Trigger Table only by LOAD TRIGGER, apart from power-on and
pin reset (R8, R91). -/
def Obligations.LevelEpochsAndTablesChangeOnlyByRule : Prop :=
  (∀ (c : Instr) (s t : State), exec c s = .next t →
     c ≠ .dataFrameBegin → c ≠ .controlFrameBegin → c ≠ .shaperTokenRise → c ≠ .loadSystem → c ≠ .restart →
     (∀ a b f, c ≠ .powerOn a b f) → (∀ a b f, c ≠ .pinReset a b f) → t.uplink.level = s.uplink.level) ∧
  (∀ (c : Instr) (s t : State) (p : PortNo), exec c s = .next t →
     (t.part.port p).epoch = (s.part.port p).epoch
     ∨ ((c = .portControlEnable ∨ c = .portControlReset ∨ c = .restart) ∧ (t.part.port p).epoch = (s.part.port p).epoch + 1)
     ∨ (((∃ a b f, c = .powerOn a b f) ∨ ∃ a b f, c = .pinReset a b f) ∧ (t.part.port p).epoch = 0)) ∧
  (∀ (c : Instr) (s t : State), exec c s = .next t → (∀ a b f, c ≠ .powerOn a b f) → (∀ a b f, c ≠ .pinReset a b f) →
     (c ≠ .loadPeer → t.part.peers = s.part.peers) ∧ (c ≠ .loadTrigger → t.part.triggers = s.part.triggers))

/-! ### Layouts -/

/-- A frame written out as R187 lays it out, to the station address or, an IDENTIFY, by broadcast, with any frame check sequence
the wire found good, is read back field by field (R187, R2, R13). -/
def Obligations.RelayFramesDecodeAsLaidOut : Prop :=
  ∀ (station dest : Mac) (f : RelayFrame) (fcs : List Byte),
    f.body.length ≤ 1490 → fcs.length = 4 → station ≠ broadcast → (dest = station ∨ (dest = broadcast ∧ f.kind = 0x01)) →
    acceptFrame station
      (let l := bytesOf 6 dest.toNat ++ bytesOf 6 f.source.toNat ++ [0x88, 0xB5] ++ [1] ++ [f.kind]
        ++ bytesOf 2 f.peerId.toNat ++ bytesOf 2 f.tag.toNat ++ [f.session] ++ [0] ++ bytesOf 2 f.body.length ++ f.body
       l ++ List.replicate (60 - l.length) 0 ++ fcs) true = some f

/-- The records of R190 are read back as the entries they were written from: the peer, trigger, tap, system and profile records
of every entry whose fields lie in their sets; a trigger that is not valid keeps any pattern length (R92). -/
def Obligations.RecordsReadBackAsWritten : Prop :=
  (∀ e : Peer, Peer.ofBytes e.bytes = some e ∧ e.bytes.length = 20) ∧
  (∀ e : Trigger, (e.valid = true → 1 ≤ e.length ∧ e.length ≤ 12) → e.length ≤ 255 → e.markGroup ≤ 7 → e.actions.toNat < 8 →
    (∀ k : Fin 12, e.length ≤ k.val → e.pattern[k] = 0) → Trigger.ofBytes e.bytes = some e ∧ e.bytes.length = 16) ∧
  (∀ e : TapEntry, e.inRange = true → 1 ≤ e.weight → e.weight ≤ 15 → 4 ≤ e.queueLimit → e.queueLimit ≤ 255 →
    TapEntry.ofBytes e.bytes = some (e, false) ∧ e.bytes.length = 20) ∧
  (∀ e : SystemRecord, e.station ≠ 0 → e.station.getLsbD 40 = false → 1 ≤ e.rate → e.rate ≤ 12500 → 1518 ≤ e.burst →
    e.burst ≤ 65535 → SystemRecord.ofBytes e.bytes = some e ∧ e.bytes.length = 12) ∧
  (∀ (l : List Byte) (e : Profile) (b : Bool), Profile.ofBytes l = some (e, b) →
    (Profile.ofBytes e.bytes).map Prod.fst = some e ∧ e.bytes.length = 40)

/-- A system record whose fields lie in their values (R167, R190): an individual station address that is not all zero, the rate, the
burst, the supervisor index. -/
def Sys2Proof.Claims.systemFits (r : List Byte) : Prop :=
  numAt r 0 6 ≠ 0 ∧ (numAt r 0 6).testBit 40 = false ∧ 1 ≤ numAt r 6 2 ∧ numAt r 6 2 ≤ 12500 ∧
  1518 ≤ numAt r 8 2 ∧ numAt r 8 2 ≤ 65535 ∧ (numAt r 10 1 < 32 ∨ numAt r 10 1 = 255)

/-- A profile record that passes the value and consistency checks of LOAD PROFILE once its clamped fields are clamped (R42, R43,
R188, R190). -/
def Sys2Proof.Claims.profileFits (r : List Byte) : Prop :=
  (numAt r 0 1 ≤ 1 ∧ numAt r 1 3 ≠ 0 ∧ (numAt r 4 1 = 7 ∨ numAt r 4 1 = 8) ∧ numAt r 5 1 ≤ 2 ∧
    (numAt r 6 1 = 1 ∨ numAt r 6 1 = 2) ∧ numAt r 7 1 ≤ 2 ∧ numAt r 8 1 ≤ 1 ∧ numAt r 9 1 ≤ 1) ∧
  (numAt r 10 1 ≤ 1 ∧ numAt r 11 1 ≤ 1 ∧ numAt r 12 1 ≤ 1 ∧ numAt r 13 1 ≤ 1 ∧ numAt r 14 1 ≤ 1 ∧ numAt r 17 1 ≤ 1) ∧
  (numAt r 19 2 ≤ 4095 ∧ 1 ≤ numAt r 21 2 ∧ numAt r 21 2 ≤ 4095 ∧ numAt r 23 2 ≤ 4094 ∧ numAt r 25 2 ≤ 1024) ∧
  (numAt r 32 1 ≤ 1 ∧ numAt r 33 1 ≤ 60 ∧ numAt r 34 1 ≤ 63 ∧ 1 ≤ numAt r 35 1 ∧ numAt r 35 1 ≤ 8 ∧ numAt r 36 2 < 2 ^ 10) ∧
  numAt r 23 2 < numAt r 21 2 ∧ ¬(numAt r 7 1 = 2 ∧ numAt r 10 1 = 1) ∧ ¬(numAt r 13 1 = 1 ∧ numAt r 12 1 = 1)

/-- The image that SAVE writes of tables as R8, R43, R91, R143 and R167 allow them is loaded back whole by the check of R183. That
check lets pass exactly an image with the marker, version 1, the length of the records, their CRC-32, a system record and 48
profile records whose fields fit, and reserves that sum to at most 2,048; the CRC-32 of the nine ASCII digits is 0xCBF43926. That the
CRC-32 takes the reserved bytes as they stand is the model's choice (log 51). -/
def Obligations.SavedImageLoadsBack : Prop :=
  (∀ t : Tables, t.allowed → t.image.length = 2924 ∧ loadImage t.image = some t) ∧
  (∀ l : List Byte, (loadImage l).isSome = true ↔
    (l.length = 2924 ∧ numAt l 0 4 = 0x4E4B3438 ∧ numAt l 4 2 = 1 ∧ numAt l 6 4 = 2908 ∧
      numAt l 2920 4 = (crc32 (l.take 2920)).toNat ∧ systemFits ((l.drop 12).take 12) ∧
      (∀ k < 48, profileFits ((l.drop (664 + k * 40)).take 40)) ∧
      ((List.range 48).map fun k => numAt l (664 + k * 40 + 18) 1).sum ≤ 2048)) ∧
  crc32 [0x31, 0x32, 0x33, 0x34, 0x35, 0x36, 0x37, 0x38, 0x39] = 0xCBF43926

/-! ### The Request Decoder -/

/-- While no frame waits or no reply slot is free, a request command leaves everything as it is (R4), and so it does when the
head frame is of another row (log 3, the model's choice).
A frame whose source and peer id no valid entry has, with commissioning off, is discarded and counted: no reply, no slot used
(R6). -/
def Obligations.UntakenAndUnknownFramesChangeNothingElse : Prop :=
  ((∀ s : State, (s.uplink.rxFifo = [] ∨ ∀ k, s.part.slot k ≠ .free) →
     (∀ e ∈ requestRows, exec e.1 s = .next (settle s)) ∧
     exec .unknownKindRequest s = .next (settle s) ∧ exec .identify s = .next (settle s)) ∧
   (∀ (s : State) (f : RelayFrame) (rest : List RelayFrame), s.uplink.rxFifo = f :: rest →
     (∀ e ∈ requestRows, e.2.takes f = false → exec e.1 s = .next (settle s)) ∧
     (knownKind f.kind.toNat = true → exec .unknownKindRequest s = .next (settle s)) ∧
     (f.kind ≠ 0x01 → exec .identify s = .next (settle s)))) ∧
  (∀ (s : State) (f : RelayFrame) (k : SlotNo), s.nextFrame = some (f, k) → s.part.commissioning = false →
     (∀ i, ¬((s.part.peer i).valid = true ∧ (s.part.peer i).mac = f.source ∧ (s.part.peer i).peerId = f.peerId)) →
     (∀ e ∈ requestRows, e.2.takes f = true → exec e.1 s = .next (settle { s with
       uplink := { s.uplink with rxFifo := s.uplink.rxFifo.tail, unknownSource := s.uplink.unknownSource + 1 } })) ∧
     (knownKind f.kind.toNat = false → exec .unknownKindRequest s = .next (settle { s with
       uplink := { s.uplink with rxFifo := s.uplink.rxFifo.tail, unknownSource := s.uplink.unknownSource + 1 } })))

/-- The kind code of each request, and its sub-kind: the place of that field in the body, the code, and how many codes the kind
defines (R187, R189). -/
def Sys2Proof.Claims.kindOf : Instr → Option (Nat × Option (Nat × Nat × Nat))
  | .attach => some (0x02, none)
  | .detachNow => some (0x03, some (0, 0, 2))
  | .detachFlush => some (0x03, some (0, 1, 2))
  | .keys => some (0x04, none)
  | .take => some (0x05, none)
  | .yield => some (0x06, none)
  | .history => some (0x07, none)
  | .digestReset => some (0x08, none)
  | .attention => some (0x09, none)
  | .signalBreak => some (0x0A, some (0, 0, 3))
  | .signalAuxPulse => some (0x0A, some (0, 1, 3))
  | .signalDtrPulse => some (0x0A, some (0, 2, 3))
  | .stage => some (0x0B, none)
  | .apply => some (0x0C, none)
  | .snapshot => some (0x0D, none)
  | .portControlEnable => some (0x0E, some (1, 0, 3))
  | .portControlDisable => some (0x0E, some (1, 1, 3))
  | .portControlReset => some (0x0E, some (1, 2, 3))
  | .clear => some (0x0F, none)
  | .resume => some (0x10, none)
  | .loadPeer => some (0x11, some (0, 0, 5))
  | .loadProfile => some (0x11, some (0, 1, 5))
  | .loadTrigger => some (0x11, some (0, 2, 5))
  | .loadTap => some (0x11, some (0, 3, 5))
  | .loadSystem => some (0x11, some (0, 4, 5))
  | .readPeer => some (0x12, some (0, 0, 5))
  | .readProfile => some (0x12, some (0, 1, 5))
  | .readTrigger => some (0x12, some (0, 2, 5))
  | .readTap => some (0x12, some (0, 3, 5))
  | .readSystem => some (0x12, some (0, 4, 5))
  | .statusSystem => some (0x13, some (0, 0, 3))
  | .statusPort => some (0x13, some (0, 1, 3))
  | .statusSession => some (0x13, some (0, 2, 3))
  | .save => some (0x14, none)
  | .restart => some (0x15, none)
  | _ => none

/-- The body has the length that R189 gives the request; a CLEAR names none but the ten conditions (R5). -/
def Sys2Proof.Claims.lengthFits (i : Instr) (body : List Byte) : Prop :=
  match i with
  | .attach => body.length = 9
  | .detachNow | .detachFlush | .attention | .resume => body.length = 1
  | .keys => 1 ≤ body.length ∧ body.length ≤ 512
  | .history => body.length = 4
  | .signalBreak | .signalAuxPulse | .signalDtrPulse => body.length = 3
  | .stage => body.length = 1 + 3 * numAt body 0 1
  | .apply => body.length = 8
  | .portControlEnable | .portControlDisable | .portControlReset => body.length = 2
  | .clear => body.length = 3 ∧ numAt body 1 2 < 2 ^ 10
  | .loadPeer | .loadTap => body.length = 22
  | .loadProfile => body.length = 42
  | .loadTrigger => body.length = 18
  | .loadSystem => body.length = 14
  | .readPeer | .readProfile | .readTrigger | .readTap | .readSystem => body.length = 2
  | .statusSystem | .statusPort | .statusSession => body.length = 2
  | _ => body.length = 0

/-- The request names a session that the Decoder checks (R5). -/
def Sys2Proof.Claims.namesSession (i : Instr) (session : Byte) : Prop :=
  match i with
  | .detachNow | .detachFlush | .keys | .take | .yield | .history | .digestReset | .attention => True
  | .signalBreak | .signalAuxPulse | .signalDtrPulse | .statusSession => True
  | .snapshot => session ≠ 0xFF
  | _ => False

/-- The body fits its kind (R5): its length, its sub-kind, and for a kind that needs a session a number that is not 0xFF. -/
def Sys2Proof.Claims.bodyFits (i : Instr) (f : RelayFrame) : Prop :=
  lengthFits i f.body ∧ (i ≠ .snapshot → namesSession i f.session → f.session ≠ 0xFF) ∧
  ∀ kind at_ code defined, kindOf i = some (kind, some (at_, code, defined)) → numAt f.body at_ 1 = code

/-- The fixed right of the table of R5. -/
def Sys2Proof.Claims.rightHeld (i : Instr) (c : Request) : Prop :=
  match i with
  | .signalBreak | .signalAuxPulse | .signalDtrPulse => c.signalRight ≠ .noSignal
  | .snapshot => c.configure = true ∨ c.header.session ≠ 0xFF
  | .portControlEnable | .portControlDisable | .portControlReset | .clear | .save | .restart => c.configure = true
  | .loadPeer | .loadProfile | .loadTrigger | .loadTap | .loadSystem => c.configure = true
  | _ => True

/-- The Decoder's refusals (R4, R5, R7): a body that does not fit gives BAD_FORMAT, then a missing fixed right NO_RIGHT, then
a session that is not the peer's NO_SESSION; the reply is the one effect. Which frames a row takes, which bodies fit it, which
right it needs and when it names a session are those of the tables of R5, R187 and R189, written out above. That any row of a
kind takes a body of no sub-kind, and what names a session in a SNAPSHOT, are the model's readings (log 14, 23). The rights a request
is dispatched with are those of the valid entry that has its source and peer id, the lowest if several had (R6), and every right while
commissioning is on, with that entry or with none (R12). -/
def Obligations.RefusedRequestsOnlyAnswer : Prop :=
  (∀ (s : Part) (f : RelayFrame) (k : SlotNo),
    let matched := fun i : PeerNo => (s.peer i).valid = true ∧ (s.peer i).mac = f.source ∧ (s.peer i).peerId = f.peerId
    let header : ReqHeader := { source := f.source, kind := f.kind, peerId := f.peerId, tag := f.tag, session := f.session }
    let every := fun peer : Option PeerNo => ({ slot := k, header, body := f.body, peer, mask := BitVec.allOnes 48
                                                maxRole := .take, signalRight := .all, configure := true } : Request)
    (∀ i, matched i → (∀ j, j < i → ¬matched j) → s.openRequest f k = some
      (if s.commissioning then every (some i)
       else { slot := k, header, body := f.body, peer := some i, mask := (s.peer i).mask, maxRole := (s.peer i).maxRole
              signalRight := (s.peer i).signalRight, configure := (s.peer i).configure })) ∧
    ((∀ i, ¬matched i) → s.openRequest f k = if s.commissioning then some (every none) else none)) ∧
  (∀ e ∈ requestRows, ∃ kind sub, kindOf e.1 = some (kind, sub) ∧
    (∀ f : RelayFrame, e.2.takes f = true ↔ (f.kind.toNat = kind ∧ ∀ at_ code defined, sub = some (at_, code, defined) →
      f.body.length ≤ at_ ∨ numAt f.body at_ 1 = code ∨ defined ≤ numAt f.body at_ 1)) ∧
    (∀ f : RelayFrame, e.2.fits f = true ↔ bodyFits e.1 f) ∧
    (∀ c : Request, c.hasRight e.2.right = true ↔ rightHeld e.1 c) ∧
    (∀ c : Request, sessionChecked e.2.session c = true ↔ namesSession e.1 c.header.session)) ∧
  ∀ (s : State) (f : RelayFrame) (k : SlotNo) (c : Request), s.nextFrame = some (f, k) → s.part.openRequest f k = some c →
    ∀ e ∈ requestRows, e.2.takes f = true →
      (e.2.fits f = false → Answers e.1 s f k .badFormat [] s.part) ∧
      (e.2.fits f = true → c.hasRight e.2.right = false → Answers e.1 s f k .noRight [] s.part) ∧
      (e.2.fits f = true → c.hasRight e.2.right = true → sessionChecked e.2.session c = true →
        (64 ≤ f.session.toNat ∨ (s.part.session c.session).state = .free ∨
          c.peer ≠ some (s.part.session c.session).peer) →
        Answers e.1 s f k .noSession [] s.part)

/-- A frame that arrives: refused by a check of R2 it adds one to rejected, passing them it joins the tail of the Receive FIFO
and adds one to accepted, and with 16 frames waiting it adds one to overflow instead; nothing else changes (R2, R3). That the
link state is not looked at is the model's choice (log 40). -/
def Obligations.ArrivalIsCheckedAndPlaced : Prop :=
  ∀ (s : State) (frame : List Byte) (goodFcs : Bool),
    (acceptFrame s.part.system.station frame goodFcs = none ↔
      (goodFcs = false ∨ frame.length < 64 ∨ 1518 < frame.length ∨
        (BitVec.ofNat 48 (numAt frame 0 6) ≠ s.part.system.station ∧ BitVec.ofNat 48 (numAt frame 0 6) ≠ broadcast) ∨
        numAt frame 12 2 ≠ 0x88B5 ∨ numAt frame 14 1 ≠ 1 ∨ frame.length - 28 < numAt frame 22 2 ∨
        (BitVec.ofNat 48 (numAt frame 0 6) = broadcast ∧ numAt frame 15 1 ≠ 0x01))) ∧
    (acceptFrame s.part.system.station frame goodFcs = none → exec (.frameArrival frame goodFcs) s = .next (settle { s with
      uplink := { s.uplink with rejected := s.uplink.rejected + 1 } })) ∧
    (∀ f, acceptFrame s.part.system.station frame goodFcs = some f → s.uplink.rxFifo.length < 16 →
      exec (.frameArrival frame goodFcs) s = .next (settle { s with
        uplink := { s.uplink with rxFifo := s.uplink.rxFifo ++ [f], accepted := s.uplink.accepted + 1 } })) ∧
    (∀ f, acceptFrame s.part.system.station frame goodFcs = some f → 16 ≤ s.uplink.rxFifo.length →
      exec (.frameArrival frame goodFcs) s = .next (settle { s with
        uplink := { s.uplink with overflow := s.uplink.overflow + 1 } }))

/-- A matched frame of a kind outside 0x01 to 0x15 is answered BAD_FORMAT, and nothing else changes (R5). IDENTIFY is answered
whatever its source: OK with the station address, the image state, revision 1 and the commissioning state, or BAD_FORMAT when
it has a body; nothing else changes (R13). The code of the commissioning state and the one byte of the revision are the model's
(log 20, 32). -/
def Obligations.IdentifyAndUnknownKindsAreAnswered : Prop :=
  (∀ (s : State) (f : RelayFrame) (k : SlotNo) (c : Request), s.nextFrame = some (f, k) → s.part.openRequest f k = some c →
     (f.kind.toNat = 0 ∨ 0x15 < f.kind.toNat) → Answers .unknownKindRequest s f k .badFormat [] s.part) ∧
  (∀ (s : State) (f : RelayFrame) (k : SlotNo), s.nextFrame = some (f, k) → f.kind = 0x01 →
     (f.body = [] → Answers .identify s f k .ok
       (bytesOf 6 s.part.system.station.toNat ++ bytesOf 1 s.part.imageState.code ++ [1]
         ++ [if s.part.commissioning then 0 else 1]) s.part) ∧
     (f.body ≠ [] → Answers .identify s f k .badFormat [] s.part))


namespace Sys2Proof.Claims

/-- The part once the frame has left the Receive FIFO and slot `k` stands reserved for its reply (R4, R7, R14). -/
def claimed (s : State) (r : RequestRow) (f : RelayFrame) (k : SlotNo) (c : Request) : Part :=
  { begun s r c with slots := s.part.slots.set k (.reserved f.header) }

/-- The data of a delayed DETACH reply: end reason, blocks discarded, final digests and counters (R141, R189). -/
def detachReply (reason : EndReason) (discarded : Nat) (x : Session) : List Byte :=
  bytesOf 1 reason.code ++ bytesOf 2 discarded ++ bytesOf 2 x.keysDigest.toNat ++ bytesOf 2 x.outputDigest.toNat
    ++ bytesOf 4 x.gapBytes.toNat ++ bytesOf 4 x.keyBytes.toNat


/-- What every session end does (R28, R77, R140, R141, R161, R181), from part `s` to part `t`: the entry is FREE and the other
entries stand; its queue is empty, and, while no port waits for a cell, the block of each of its entries has lost one hold; the
other queues stand; the head of the port it owned is not HELD; no byte of its port's transmitter and no OUTPUT frame names it;
the delayed DETACH reply it had reserved is formed, and nothing else of the Reply Queue changes; the notice its end sends stands
last in the Notice Queue, or all 32 places are taken and it is lost; the notices queued before stand, but for its ATTENTION notice;
the ports and the part keep what releasing holds leaves of them. -/
structure SessionEnded (n : SessionNo) (reason : EndReason) (code : ResultCode) (discarded : Nat)
    (event : Option (EventReason × Address)) (s t : Part) : Prop where
  entry : t.session n = .free
  others : ∀ m, m ≠ n → t.session m = s.session m
  queue : t.queue (sessionQueue n) = []
  queues : ∀ q, q ≠ sessionQueue n → t.queue q = s.queue q
  owner : s.owns n (s.session n).port = true → (t.port (s.session n).port).headHold ≠ .held
  fifo : ∀ e ∈ (t.port (s.session n).port).engine.fifo, e.2 ≠ some n
  shift : ∀ b, (t.port (s.session n).port).engine.shift ≠ .key b (some n)
  sending : ∀ b q frame cut, t.transmission ≠ some ⟨.output b q (some n), frame, cut⟩
  frame : t.transmission.map Transmission.frame = s.transmission.map Transmission.frame
  reply : ∀ k h, (s.session n).drainSlot = some k → s.slot k = .reserved h →
    t.slots = s.slots.set k (.formed h code (detachReply reason discarded (s.session n))) ∧ t.formed = s.formed ++ [k]
  noReply : (s.session n).drainSlot = none → t.slots = s.slots ∧ t.formed = s.formed
  attention : (s.session n).attention = true → ∀ m ∈ t.notices, m.marks ≠ some n
  cleared : s.waitList = [] → HoldsGone (fun id => ((s.queue (sessionQueue n)).map Ref.block).count id) s t
  notice : ∀ e dst, event = some (e, dst) →
    ((t.notices.getLast?.map fun m => (m.dst, m.body)) =
      some (dst, .sessionEvent n (s.session n).tag (s.session n).port e none) ∧ t.noticesLost = false) ∨
    (t.noticesLost = true ∧ 32 ≤ t.notices.length)
  standing : ∀ m ∈ s.notices, m.marks ≠ some n → m ∈ t.notices
  ports : ∀ p, PortStands (s.port p) (t.port p)
  rest : PartStands s t

end Sys2Proof.Claims

/-! ### Sessions -/

/-- ATTACH refused by a check of R121, in its order; nothing changes but the reply.
ATTACH that passes every check (R122, R130): the lowest-numbered FREE entry becomes ACTIVE with the clamped fields; asking
for OWN it becomes owner when the port has none, or when its peer has the TAKE right, the present owner being demoted with a
notice; an owner change makes a HELD head RETRY; nothing else changes. -/
def Obligations.AttachIsCheckedAndSetsUpTheSession : Prop :=
  (∀ (s : State) (f : RelayFrame) (k : SlotNo) (c : Request), Passes s attachRow f k c →
     ((48 ≤ c.byte 0 ∨ 2 ≤ c.byte 1) → Answers .attach s f k .badValue [] s.part) ∧
     ∀ p : PortNo, c.byte 0 = p.val → c.byte 1 ≤ 1 →
       ((c.peer = none ∨ c.mayUse p = false ∨ (c.byte 1 = 1 ∧ c.maxRole = .observe)) → Answers .attach s f k .noRight [] s.part) ∧
       ∀ i : PeerNo, c.peer = some i → c.mayUse p = true → (c.byte 1 = 1 → c.maxRole ≠ .observe) →
         ((s.part.port p).portState = .disabled → Answers .attach s f k .badState [] s.part) ∧
         (c.byte 1 = 1 → (s.part.port p).portState = .localHold → Answers .attach s f k .localPresence [] s.part) ∧
         ((s.part.port p).portState ≠ .disabled → ¬(c.byte 1 = 1 ∧ (s.part.port p).portState = .localHold) →
           ((∀ n, (s.part.session n).state ≠ .free) ∨ 8 ≤ (s.part.sessionsOf i).length) →
           Answers .attach s f k .noRoom [] s.part)) ∧
  (∀ (s : State) (f : RelayFrame) (k : SlotNo) (c : Request) (i : PeerNo) (p : PortNo) (n : SessionNo),
     Passes s attachRow f k c → c.peer = some i → c.byte 0 = p.val → c.byte 1 ≤ 1 → c.mayUse p = true →
     (s.part.port p).portState ≠ .disabled →
     (c.byte 1 = 1 → c.maxRole ≠ .observe ∧ (s.part.port p).portState ≠ .localHold) →
     (s.part.session n).state = .free → (∀ m, m < n → (s.part.session m).state ≠ .free) → (s.part.sessionsOf i).length < 8 →
     let idle := if numAt c.body 5 2 = 0 then 0 else clampNat 5 3600 (numAt c.body 5 2)
     let x : Session :=
       { state := .active, peer := i, tag := BitVec.ofNat 16 (numAt c.body 2 2), port := p, role := .observer
         weight := clampNat 1 15 (c.byte 4), queueLimit := clampNat 4 255 (numAt c.body 7 2), idleTimeout := idle
         idleTimer := if idle = 0 then none else some (idle * 1000), nextOffset := (s.part.port p).streamOffset
         gapBytes := 0, keysDigest := 0xFFFF, outputDigest := 0xFFFF, keyBytes := 0, attention := false
         drainTimer := none, drainSlot := none }
     let code : ResultCode :=
       if x.weight = c.byte 4 ∧ idle = numAt c.body 5 2 ∧ x.queueLimit = numAt c.body 7 2 then .ok else .adjusted
     let e : Part :=
       if c.byte 1 = 1 then
         match s.part.ownerOf p with
         | none => (s.part.setSession n { x with role := .owner }).modPort p retried
         | some a =>
           if c.mayTake p then
             (offerNotice
               { dst := s.part.addressOf a, lost := false, marks := none
                 body := .sessionEvent a (s.part.session a).tag p .demoted (some n) }
               ((s.part.setSession a { s.part.session a with role := .observer }).setSession n { x with role := .owner })).modPort
               p retried
           else s.part.setSession n x
       else s.part.setSession n x
     Answers .attach s f k code
       (bytesOf 1 n.val ++ bytesOf 1 (e.session n).role.code ++ optByte ((e.ownerOf p).map Fin.val)
         ++ bytesOf 1 (s.part.port p).portState.code ++ [(s.part.port p).epoch] ++ bytesOf 4 (s.part.port p).streamOffset.toNat
         ++ bytesOf 1 x.weight ++ bytesOf 2 x.idleTimeout ++ bytesOf 2 x.queueLimit) e)

/-- DETACH NOW ends the session, ACTIVE or DRAINING, with reason DETACHED (R125, R140): a DRAINING session's delayed reply is
formed first, OK with 0 discarded, and then its own reply with the entries cleared and the final digests and counters.
DETACH FLUSH (R126): BAD_STATE for a DRAINING session; with its queue empty an ACTIVE session ends at once, its reply OK with
0 discarded; otherwise it enters DRAINING with the drain limit running, gives up its port without a notice, and its reply slot
stays reserved. -/
def Obligations.DetachEndsOrDrainsTheSession : Prop :=
  (∀ (s : State) (f : RelayFrame) (k : SlotNo) (c : Request), Passes s (detachRow 0) f k c → s.slotsHeld →
     let n := c.session
     let x := s.part.session n
     Ends .detachNow s fun u => ∃ t : Part,
       SessionEnded n .detached .ok 0 none (claimed s (detachRow 0) f k c) t ∧
       u.part = { t with
         slots := t.slots.set k (.formed f.header .ok
           (bytesOf 2 (s.part.queue (sessionQueue n)).length ++ bytesOf 2 x.keysDigest.toNat ++ bytesOf 2 x.outputDigest.toNat
             ++ bytesOf 4 x.gapBytes.toNat ++ bytesOf 4 x.keyBytes.toNat))
         formed := t.formed ++ [k] } ∧
       u.pending = s.pending ∧ u.uplink = { s.uplink with rxFifo := s.uplink.rxFifo.tail }) ∧
  (∀ (s : State) (f : RelayFrame) (k : SlotNo) (c : Request), Passes s (detachRow 1) f k c →
     let n := c.session
     let x := (s.part.session n)
     let b := begun s (detachRow 1) c
     (x.state = .draining → Answers .detachFlush s f k .badState [] b) ∧
     (x.state = .active → s.part.queue (sessionQueue n) = [] → Ends .detachFlush s fun u =>
       SessionEnded n .detached .ok 0 none
         ((claimed s (detachRow 1) f k c).setSession n { b.session n with drainSlot := some k }) u.part ∧
       u.pending = s.pending ∧ u.uplink = { s.uplink with rxFifo := s.uplink.rxFifo.tail }) ∧
     (x.state = .active → s.part.queue (sessionQueue n) ≠ [] → Ends .detachFlush s fun u => Reserves s u f k ∧
       let d := b.setSession n { b.session n with
         state := .draining, role := .observer, idleTimer := none, drainTimer := some 10000, drainSlot := some k }
       Leaves u (if s.part.owns n x.port then d.modPort x.port retried else d)))

/-- KEYS refused by a check of R132, in its order: no byte is placed, no offset advances, no copy is made; FULL carries the free
space found. -/
def Obligations.KeysAreCheckedInOrder : Prop :=
  ∀ (s : State) (f : RelayFrame) (k : SlotNo) (c : Request), Passes s keysRow f k c →
    let n := c.session
    let p := (s.part.session n).port
    let x := s.part.port p
    let b := begun s keysRow c
    ((s.part.session n).state ≠ .active → Answers .keys s f k .badState [] b) ∧
    ((s.part.session n).state = .active →
      (x.portState = .localHold → Answers .keys s f k .localPresence [] b) ∧
      (x.portState ≠ .localHold → s.part.owns n p = false → Answers .keys s f k .notOwner [] b) ∧
      (x.portState = .reconfig → s.part.owns n p = true → Answers .keys s f k .busy [] b) ∧
      (x.portState ≠ .localHold → x.portState ≠ .reconfig → s.part.owns n p = true →
        512 - x.engine.fifo.length < c.body.length →
        Answers .keys s f k .full (bytesOf 2 (512 - x.engine.fifo.length)) b))

/-- Tap t matches a submission of session n to port p (R149): it is enabled, copies KEYS or BOTH, has the port in its mask, and its peer
filter, if it names an index, names the sending session's. -/
def Sys2Proof.Claims.takesKeys (s : Part) (t : TapNo) (p : PortNo) (n : SessionNo) : Prop :=
  let e := (s.tap t).entry
  e.enabled = true ∧ (e.direction = .keys ∨ e.direction = .both) ∧ e.portMask.getLsbD p.val = true ∧
  ∀ i, e.peerFilter = some i → (s.session n).peer.val = i

/-- KEYS accepted (R133): the payload joins the tail of the Transmit FIFO whole and tagged, the key offset and the session's count
advance, the transmitter loads what it may, the reply carries the first byte's offset and the space left; what the Tap Table
makes of it apart, nothing else changes, and nothing at all when no tap matches (R149). -/
def Obligations.KeysEnterTheFifoWhole : Prop :=
  ∀ (s : State) (f : RelayFrame) (k : SlotNo) (c : Request), Passes s keysRow f k c →
    let n := c.session
    let p := (s.part.session n).port
    let x := s.part.port p
    let b := begun s keysRow c
    (s.part.session n).state = .active → x.portState ≠ .localHold → x.portState ≠ .reconfig → s.part.owns n p = true →
    c.body.length ≤ 512 - x.engine.fifo.length →
    Ends .keys s fun u =>
      Replies s u f k .ok (bytesOf 4 x.keyOffset.toNat ++ bytesOf 2 (512 - x.engine.fifo.length - c.body.length)) ∧
      (let e := (b.setSession n { b.session n with keyBytes := (s.part.session n).keyBytes + BitVec.ofNat 32 c.body.length }).setPort p
          (Port.load { x with
            keyOffset := x.keyOffset + BitVec.ofNat 32 c.body.length
            engine := { x.engine with fifo := x.engine.fifo ++ c.body.map fun v => (v, some n) } })
       Leaves u { e with taps := u.part.taps, queues := u.part.queues, mem := u.part.mem, freeList := u.part.freeList,
                         blocks := u.part.blocks, tapUse := u.part.tapUse } ∧
       ((∀ t, ¬takesKeys s.part t p n) → Leaves u e))

/-- The key copy (R74, R149, R150, R152, R154): the highest-numbered tap that matches receives one KEYS block of exactly the
submitted bytes, charged to the tap reserve, or counts a dropped copy when the reserve or its queue has no room; memory
outside the block's cells stands. The block is named by its first cell, and the room asked for counts the free cells, which R66
always leaves and no run lacks: the model's choices (log 12, 37). -/
def Obligations.KeyCopyHoldsTheSubmission : Prop :=
  ∀ (s : State) (f : RelayFrame) (k : SlotNo) (c : Request) (t : TapNo), Passes s keysRow f k c →
    s.memoryCanonical → s.cellsOnce →
    let n := c.session
    let p := (s.part.session n).port
    let x := s.part.port p
    let cells := (c.body.length + 63) / 64
    let q := tapQueue t
    let room := s.part.tapUse + cells ≤ 64 ∧ cells ≤ s.part.freeList.length ∧
      ((s.part.queue q).length < 4 ∨ ((s.part.queue q).length < (s.part.tap t).entry.queueLimit ∧ s.part.sharedRefsUsed < 752))
    (s.part.session n).state = .active → x.portState ≠ .localHold → x.portState ≠ .reconfig → s.part.owns n p = true →
    c.body.length ≤ 512 - x.engine.fifo.length →
    takesKeys s.part t p n → (∀ t', t < t' → ¬takesKeys s.part t' p n) →
    (room → Ends .keys s fun u => ∃ b : Block,
      b.kind = .keys ∧ b.port = p ∧ b.epoch = x.epoch ∧ b.start = x.keyOffset ∧ b.length = c.body.length ∧
      b.cells = s.part.freeList.take cells ∧ b.sender = some n ∧ b.marks = 0 ∧ b.refCount = 1 ∧
      u.part.block b.id = some b ∧ u.part.blockBytes b = c.body ∧
      u.part.queue q = s.part.queue q ++ [{ block := b.id, history := false }] ∧
      (∀ q', q' ≠ q → u.part.queue q' = s.part.queue q') ∧
      u.part.tapUse = s.part.tapUse + cells ∧ u.part.freeList = s.part.freeList.drop cells ∧
      (u.part.tap t).counters.copiesQueued = (s.part.tap t).counters.copiesQueued + 1 ∧
      ∀ a, a / 64 ∉ b.cells → Memory.read u.part.mem a = Memory.read s.part.mem a) ∧
    (¬room → Ends .keys s fun u =>
      u.part.mem = s.part.mem ∧ u.part.blocks = s.part.blocks ∧ u.part.queues = s.part.queues ∧
      u.part.freeList = s.part.freeList ∧ u.part.tapUse = s.part.tapUse ∧
      (u.part.tap t).counters = { (s.part.tap t).counters with
        copiesDropped := (s.part.tap t).counters.copiesDropped + 1
        keyGap := (s.part.tap t).counters.keyGap + BitVec.ofNat 32 c.body.length })

/-- TAKE (R129, R130) in the order of its checks: the session becomes owner of a port without owner, or in place of an owner
it may displace, who is demoted with a notice naming the taker; the reply carries the previous owner. YIELD (R131): the owner
becomes observer and the port has no owner; no notice is sent. An owner change makes a HELD head RETRY. The previous owner in
the reply to the owner itself is the model's reading (log 24). -/
def Obligations.TakeAndYieldMoveOwnership : Prop :=
  (∀ (s : State) (f : RelayFrame) (k : SlotNo) (c : Request), Passes s takeRow f k c →
    let n := c.session
    let p := (s.part.session n).port
    let b := begun s takeRow c
    ((s.part.session n).state = .draining → Answers .take s f k .badState [] b) ∧
    ((s.part.session n).state = .active →
      (s.part.ownerOf p = some n → Answers .take s f k .ok [BitVec.ofNat 8 n.val] b) ∧
      (s.part.ownerOf p ≠ some n →
        ((s.part.port p).portState = .localHold → Answers .take s f k .localPresence [] b) ∧
        ((s.part.port p).portState ≠ .localHold → c.mayOwn p = false → Answers .take s f k .noRight [] b) ∧
        ((s.part.port p).portState ≠ .localHold → c.mayOwn p = true →
          (s.part.ownerOf p = none → Answers .take s f k .ok [0xFF]
            ((b.setSession n { b.session n with role := .owner }).modPort p retried)) ∧
          (∀ a, s.part.ownerOf p = some a →
            (c.mayTake p = false → Answers .take s f k .busy [] b) ∧
            (c.mayTake p = true → Answers .take s f k .ok [BitVec.ofNat 8 a.val]
              ((offerNotice
                { dst := s.part.addressOf a, lost := false, marks := none
                  body := .sessionEvent a (s.part.session a).tag p .demoted (some n) }
                ((b.setSession a { b.session a with role := .observer }).setSession n
                  { b.session n with role := .owner })).modPort p retried))))))) ∧
  (∀ (s : State) (f : RelayFrame) (k : SlotNo) (c : Request), Passes s yieldRow f k c →
    let n := c.session
    let p := (s.part.session n).port
    let b := begun s yieldRow c
    ((s.part.session n).state = .draining → Answers .yield s f k .badState [] b) ∧
    ((s.part.session n).state = .active → s.part.owns n p = false → Answers .yield s f k .notOwner [] b) ∧
    ((s.part.session n).state = .active → s.part.owns n p = true →
      Answers .yield s f k .ok [] ((b.setSession n { b.session n with role := .observer }).modPort p retried) ∧
      (s.portsOwned → Ends .yield s fun u => u.part.ownerOf p = none)))

/-- HISTORY (R113 to R116): BAD_STATE for a DRAINING session; otherwise its queue is cleared. The candidates run from the first block
of the Output Chain that ends after the offset asked for to the newest, and there are none when the chain's end is not after it, as for
an offset more than 2^31 − 1 bytes before that end. The newest N are placed on the queue oldest first with the HISTORY flag, N being
the admissible count, each block gains a hold, and the next expected offset becomes the first one's start. -/
def Obligations.HistoryRefillsTheQueue : Prop :=
  ∀ (s : State) (f : RelayFrame) (k : SlotNo) (c : Request), Passes s historyRow f k c →
    let n := c.session
    let q := sessionQueue n
    let p := (s.part.session n).port
    let b := begun s historyRow c
    let start := BitVec.ofNat 32 (numAt c.body 0 4)
    let t := clearQueue q (claimed s historyRow f k c)
    let chain := (t.port p).chain
    let after := fun id => (t.block id).any fun x =>
      let before := (x.start + BitVec.ofNat 32 x.length - start).toNat
      decide (1 ≤ before ∧ before ≤ 2 ^ 31 - 1)
    let candidates := if chain.getLast?.any after then chain.dropWhile (fun id => !after id) else []
    let count := min (s.part.session n).queueLimit (4 + (752 - t.sharedRefsUsed))
    let placed := candidates.drop (candidates.length - count)
    let first := placed.head?.bind t.block
    ((s.part.session n).state = .draining → Answers .history s f k .badState [] b) ∧
    ((s.part.session n).state = .active → chain.Nodup → Ends .history s fun u =>
      Replies s u f k .ok (bytesOf 2 (s.part.queue q).length ++ bytesOf 4 ((first.map fun x => x.start.toNat).getD 0)
        ++ bytesOf 2 placed.length ++ bytesOf 2 (candidates.length - placed.length) ++ [(s.part.port p).epoch]) ∧
      u.part.queue q = placed.map (fun id => { block := id, history := true }) ∧
      (∀ q', q' ≠ q → u.part.queue q' = s.part.queue q') ∧
      (∀ id, u.part.block id = (t.block id).map fun x =>
        if id ∈ placed then { x with refCount := x.refCount + 1 } else x) ∧
      u.part.session n = { b.session n with nextOffset := (first.map Block.start).getD (s.part.session n).nextOffset } ∧
      (∀ m, m ≠ n → u.part.session m = s.part.session m) ∧
      Leaves u { t with queues := u.part.queues, blocks := u.part.blocks, sessions := u.part.sessions })

/-- DIGEST_RESET (R138): both digests become 0xFFFF, the reply carries both as they stood, nothing else changes. -/
def Obligations.DigestResetReturnsOldDigests : Prop :=
  ∀ (s : State) (f : RelayFrame) (k : SlotNo) (c : Request), Passes s digestResetRow f k c →
    let x := s.part.session c.session
    let b := begun s digestResetRow c
    Answers .digestReset s f k .ok (bytesOf 2 x.keysDigest.toNat ++ bytesOf 2 x.outputDigest.toNat)
      (b.setSession c.session { b.session c.session with keysDigest := 0xFFFF, outputDigest := 0xFFFF })

/-- ATTENTION (R135) in the order of its checks: the target's pending flag becomes set and its peer's notice joins the tail of the
Notice Queue, with the lost indication if that flag stood. -/
def Obligations.AttentionMarksItsTarget : Prop :=
  ∀ (s : State) (f : RelayFrame) (k : SlotNo) (c : Request), Passes s attentionRow f k c →
    let n := c.session
    let b := begun s attentionRow c
    (64 ≤ c.byte 0 → Answers .attention s f k .noSession [] b) ∧
    ∀ t : SessionNo, c.byte 0 = t.val →
      ((s.part.session t).state = .free → Answers .attention s f k .noSession [] b) ∧
      ((s.part.session t).state ≠ .free →
        ((s.part.session t).attention = true → Answers .attention s f k .attentionPending [] b) ∧
        ((s.part.session t).attention = false → 32 ≤ s.part.notices.length → Answers .attention s f k .busy [] b) ∧
        ((s.part.session t).attention = false → s.part.notices.length < 32 → Answers .attention s f k .ok []
          { b.setSession t { b.session t with attention := true } with
            notices := s.part.notices ++
              [{ dst := s.part.addressOf t, lost := s.part.noticesLost, marks := some t
                 body := .attention t n (s.part.session n).peer (s.part.session n).port (s.part.session t).tag }]
            noticesLost := false }))

/-! ### Lines, staging, snapshots -/

/-- The three kinds of SIGNAL with their rows. -/
def Sys2Proof.Claims.signalRows : List (Instr × SignalKind × RequestRow) :=
  [(.signalBreak, .breakSignal, signalRow 0), (.signalAuxPulse, .auxPulse, signalRow 1),
   (.signalDtrPulse, .dtrPulse, signalRow 2)]

/-- SIGNAL (R171, R172) in the order of its checks; accepted, its slot stays reserved, the record takes the kind with its duration
clamped or taken from the profile, a BREAK begins in SPACE or waits for the character in the shift register, and a pulse moves
AUX to ASSERT or DTR to DEASSERT at once. -/
def Obligations.SignalsBeginOnTheirLines : Prop :=
  ∀ e ∈ signalRows, ∀ (s : State) (f : RelayFrame) (k : SlotNo) (c : Request), Passes s e.2.2 f k c →
    let n := c.session
    let p := (s.part.session n).port
    let x := s.part.port p
    let b := begun s e.2.2 c
    let requested := numAt c.body 1 2
    let policy : Option ResultCode :=
      if e.2.1 ≠ .breakSignal ∧ c.signalRight ≠ .all then some .noRight
      else if e.2.1 = .breakSignal ∧ x.profile.breakPolicy = .refuse then some .noRight
      else if e.2.1 = .auxPulse ∧ x.profile.auxUse ≠ .resetAssist then some .badState
      else if e.2.1 = .dtrPulse ∧ x.profile.dtrControl ≠ .auto then some .badState
      else none
    let duration := match e.2.1 with
      | .breakSignal => clampNat 10 2000 requested
      | .auxPulse => x.profile.auxPulse
      | .dtrPulse => clampNat 100 5000 requested
    let g : Signal :=
      { kind := e.2.1, duration, elapsed := 0, session := n, slot := k
        phase := if e.2.1 = .breakSignal then (if x.engine.shift = .empty then .space else .waiting) else .on
        clamped := decide (e.2.1 ≠ .auxPulse ∧ duration ≠ requested) }
    ((s.part.session n).state = .draining → Answers e.1 s f k .badState [] b) ∧
    ((s.part.session n).state = .active →
      (x.portState = .localHold → Answers e.1 s f k .localPresence [] b) ∧
      (x.portState ≠ .localHold → s.part.owns n p = false → Answers e.1 s f k .notOwner [] b) ∧
      (x.portState = .reconfig → s.part.owns n p = true → Answers e.1 s f k .busy [] b) ∧
      (x.portState ≠ .localHold → x.portState ≠ .reconfig → s.part.owns n p = true →
        (∀ code, policy = some code → Answers e.1 s f k code [] b) ∧
        (policy = none → x.signal ≠ none → Answers e.1 s f k .busy [] b) ∧
        (policy = none → x.signal = none → Ends e.1 s fun u =>
          Reserves s u f k ∧ Leaves u (b.setPort p (Port.refreshLines { x with signal := some g })) ∧
          (e.2.1 = .auxPulse → x.profile.auxControl = .auto → x.portState ≠ .disabled →
            (u.part.port p).lines.aux = .assert) ∧
          (e.2.1 = .dtrPulse → (u.part.port p).lines.dtr = .deassert))))

/-- STAGE (R175): a count outside 1 to 144 or an entry outside its sets gives BAD_VALUE, a port the peer may not drive NO_RIGHT;
otherwise each line named takes the last value the list gives it, the count of values replaced is reported, and no line, no other
staged value and nothing else changes. That a value of the same list counts as replaced is the model's choice (log 47). -/
def Obligations.StageWritesInListOrder : Prop :=
  ∀ (s : State) (f : RelayFrame) (k : SlotNo) (c : Request), Passes s stageRow f k c →
    let count := numAt c.body 0 1
    let entry := fun j => (c.body.drop (1 + 3 * j)).take 3
    ((count = 0 ∨ 144 < count ∨ ∃ j < count, 48 ≤ numAt (entry j) 0 1 ∨ 3 ≤ numAt (entry j) 1 1 ∨ 3 ≤ numAt (entry j) 2 1) →
      Answers .stage s f k .badValue [] s.part) ∧
    ∀ l : List StageEntry, 1 ≤ count → count ≤ 144 → l.length = count →
      (∀ (j : Nat) (h : j < l.length), entry j = [BitVec.ofNat 8 l[j].port.val, BitVec.ofNat 8 l[j].line.code, BitVec.ofNat 8 l[j].value.code]) →
      ((∃ e ∈ l, c.configure = false ∧ s.part.peerOwns c e.port = false) → Answers .stage s f k .noRight [] s.part) ∧
      ((∀ e ∈ l, c.configure = true ∨ s.part.peerOwns c e.port = true) → Ends .stage s fun u =>
        Replies s u f k .ok (bytesOf 2 count ++ bytesOf 2 ((List.range count).filter fun j =>
          (l[j]?).any fun e => ((s.part.port e.port).staging.get e.line).isSome
            || (l.take j).any fun d => d.port == e.port && d.line == e.line).length) ∧
        (∀ p line, (u.part.port p).staging.get line =
          match l.reverse.find? fun e => e.port == p && e.line == line with
          | some e => some e.value
          | none => (s.part.port p).staging.get line) ∧
        (∀ p, u.part.port p = { s.part.port p with staging := (u.part.port p).staging }) ∧
        Leaves u { s.part with ports := u.part.ports })

/-- Why APPLY skips a staged entry: the first reason of R176 that applies. -/
def Sys2Proof.Claims.whySkipped (s : Part) (c : Request) (p : PortNo) (l : Line) : Option Nat :=
  let x := s.port p
  if x.portState = .disabled then some 0
  else if c.configure = false ∧ s.peerOwns c p = false then some 1
  else if x.profile.lineControl l = .auto then some 2
  else if (l = .dtr ∧ x.signalIs .dtrPulse = true) ∨ (l = .aux ∧ x.signalIs .auxPulse = true) then some 3
  else none

/-- APPLY (R176): a port above 47 gives BAD_VALUE; otherwise every staged value on the ports named that no reason skips
becomes live and leaves the Staging Record, the skipped ones stay staged and are listed with their reasons, and nothing else
changes. The layout of the Line Drive Records in the reply is the model's reading (log 32). -/
def Obligations.ApplyMakesStagedValuesLive : Prop :=
  ∀ (s : State) (f : RelayFrame) (k : SlotNo) (c : Request), Passes s applyRow f k c →
    let set := numAt c.body 0 8
    let ports := allPorts.filter fun p => set.testBit p.val
    let staged := ports.flatMap fun p => ([.rts, .dtr, .aux].filter fun l => ((s.part.port p).staging.get l).isSome).map fun l => (p, l)
    let skipped := staged.filterMap fun e => (whySkipped s.part c e.1 e.2).map fun r => (e.1, e.2, r)
    (2 ^ 48 ≤ set → Answers .apply s f k .badValue [] s.part) ∧
    (set < 2 ^ 48 → Ends .apply s fun u =>
      Replies s u f k .ok (bytesOf 2 (staged.length - skipped.length) ++ bytesOf 1 skipped.length
        ++ skipped.flatMap (fun e => [BitVec.ofNat 8 e.1.val, BitVec.ofNat 8 e.2.1.code, BitVec.ofNat 8 e.2.2])
        ++ ports.flatMap fun p => (u.part.port p).lines.bytes) ∧
      (∀ p l v, (s.part.port p).staging.get l = some v → set.testBit p.val = true → whySkipped s.part c p l = none →
        (u.part.port p).lines.get l = v ∧ (u.part.port p).staging.get l = none) ∧
      (∀ p l, ((s.part.port p).staging.get l = none ∨ set.testBit p.val = false ∨ whySkipped s.part c p l ≠ none) →
        (u.part.port p).lines.get l = (s.part.port p).lines.get l ∧
        (u.part.port p).staging.get l = (s.part.port p).staging.get l) ∧
      (∀ p, u.part.port p = { s.part.port p with lines := (u.part.port p).lines, staging := (u.part.port p).staging }) ∧
      Leaves u { s.part with ports := u.part.ports })

/-- SNAPSHOT (R177): OK with the raw levels of all ports, the presences, the changes since the last snapshot, the Line Drive
Records and the signals in progress; its sample replaces the last snapshot, and nothing else changes. Power-on, pin reset and
a RESTART that is carried out leave the last snapshot with RXD at mark and CTS and DSR deasserted. The layout of the records
and kinds in the reply is the model's reading (log 32). -/
def Obligations.SnapshotReplacesTheLast : Prop :=
  (∀ (s : State) (f : RelayFrame) (k : SlotNo) (c : Request), Passes s snapshotRow f k c →
    Ends .snapshot s fun u =>
      Replies s u f k .ok
        (portSetBytes (fun p => (s.part.port p).pins.rxd) ++ portSetBytes (fun p => (s.part.port p).pins.cts)
          ++ portSetBytes (fun p => (s.part.port p).pins.dsr)
          ++ portSetBytes (fun p => decide ((s.part.port p).profile.presenceSource = .dsr) && (s.part.port p).dsrDebounced)
          ++ portSetBytes (fun p => (s.part.port p).pins.rxd != (s.part.port p).lastSnap.rxd)
          ++ portSetBytes (fun p => (s.part.port p).pins.cts != (s.part.port p).lastSnap.cts)
          ++ portSetBytes (fun p => (s.part.port p).pins.dsr != (s.part.port p).lastSnap.dsr)
          ++ allPorts.flatMap (fun p => (s.part.port p).lines.bytes)
          ++ allPorts.flatMap fun p => optByte ((s.part.port p).signal.map fun g => g.kind.code)) ∧
      (∀ p, u.part.port p = { s.part.port p with lastSnap := (s.part.port p).pins }) ∧
      Leaves u { begun s snapshotRow c with ports := u.part.ports }) ∧
  (∀ (s : State) (a : Bool) (b : BitVec 4) (x : FlashAnswer) (p : PortNo),
    (Ends (.powerOn a b x) s fun u => (u.part.port p).lastSnap = { rxd := true, cts := false, dsr := false }) ∧
    (Ends (.pinReset a b x) s fun u => (u.part.port p).lastSnap = { rxd := true, cts := false, dsr := false })) ∧
  (∀ (s : State) (f : RelayFrame) (k : SlotNo) (c : Request) (p : PortNo), Passes s restartRow f k c →
    s.part.imageState ≠ .saving →
    Ends .restart s fun u => (u.part.port p).lastSnap = { rxd := true, cts := false, dsr := false })

/-! ### A port's life -/

/-- The port after it has started: its engine begins as R20 gives, its state is LOCAL_HOLD with LOCAL set or ACTIVE, its lines take
their running levels, MANUAL lines keeping theirs (R21, R53, R56, R169); its pause is still to be evaluated (R21). -/
def Sys2Proof.Claims.started (x : Port) : Port :=
  let present := x.profile.presenceSource = .dsr ∧ x.dsrDebounced = true
  { x with
    engine := engineAtStart
    portState := if present then .localHold else .active
    conditions := if present then x.conditions ||| Condition.localPresence.bit else x.conditions
    lines :=
      { rts := if x.profile.rtsControl = .auto then .assert else x.lines.rts
        dtr := if x.profile.dtrControl = .auto then (if x.signalIs .dtrPulse then .deassert else .assert) else x.lines.dtr
        aux := if x.profile.auxControl = .auto then (if x.signalIs .auxPulse then .assert else .deassert) else x.lines.aux } }

/-- PORT_CONTROL ENABLE (R53): a port above 47 gives BAD_VALUE, one that is not DISABLED BAD_STATE; otherwise the epoch rises, the
offsets and match positions return to 0, the port starts, and its pause is evaluated once against its account (R21, R35); the reply
carries its state and epoch, and nothing else of the port, no other port, session or queue changes. -/
def Obligations.EnableStartsANewRun : Prop :=
  ∀ (s : State) (f : RelayFrame) (k : SlotNo) (c : Request), Passes s (portControlRow 0) f k c →
    (48 ≤ c.byte 0 → Answers .portControlEnable s f k .badValue [] s.part) ∧
    ∀ p : PortNo, c.byte 0 = p.val →
      let x := s.part.port p
      ((s.part.port p).portState ≠ .disabled → Answers .portControlEnable s f k .badState [] s.part) ∧
      ((s.part.port p).portState = .disabled → Ends .portControlEnable s fun u =>
        Replies s u f k .ok (bytesOf 1 (u.part.port p).portState.code ++ [x.epoch + 1]) ∧
        u.part.port p = paused (started { x with
          epoch := x.epoch + 1, streamOffset := 0, keyOffset := 0, matchPos := Vector.replicate 16 0 }) ∧
        (∀ q, q ≠ p → u.part.port q = s.part.port q) ∧
        Leaves u { s.part with ports := u.part.ports, notices := u.part.notices, noticesLost := u.part.noticesLost })

/-- How many holds on block `id` stopping port `p` releases (R54, R77): one for each place it has as the port's open block, in its
Block Queue and in its Output Chain, and one for each entry of a queue of the port's sessions. -/
def Sys2Proof.Claims.holdsReleased (p : PortNo) (s : Part) (id : Nat) : Nat :=
  ((s.port p).openBlock.toList ++ (s.port p).blockQueue ++ (s.port p).chain).count id
    + ((s.sessionsOn p).map fun n => ((s.queue (sessionQueue n)).map Ref.block).count id).sum

/-- What stopping port `p` with the given reason does (R54, R140 to R142), from part `s` to part `t`: its sessions are FREE with
their queues empty, and the other sessions and queues stand; the delayed replies are formed ABORTED in the order DETACH by session,
signal, profile load; each end's SESSION_EVENT notice is queued or shows as lost, and with room for them all, and no supervisor
for other notices, they stand last in the Notice Queue in session order; while no port waits for a cell, every block loses the holds released, one whose last hold goes is freed with its cells on the free
list and out of its port's account, and every other block stands; every other port keeps what releasing holds leaves of it. -/
structure Sys2Proof.Claims.PortStopped (p : PortNo) (reason : EndReason) (s t : Part) : Prop where
  ended : ∀ n, (s.session n).state ≠ .free → (s.session n).port = p → t.session n = .free ∧ t.queue (sessionQueue n) = []
  sessions : ∀ n, ((s.session n).state = .free ∨ (s.session n).port ≠ p) → t.session n = s.session n
  queues : ∀ q, (∀ n, (s.session n).state ≠ .free → (s.session n).port = p → q ≠ sessionQueue n) → t.queue q = s.queue q
  order : t.formed = s.formed ++ (s.sessionsOn p).filterMap (fun n => (s.session n).drainSlot)
    ++ ((s.port p).signal.map Signal.slot).toList ++ ((s.port p).pendingLoad.map PendingLoad.slot).toList
  drained : ∀ n k h, (s.session n).state ≠ .free → (s.session n).port = p → (s.session n).drainSlot = some k →
    s.slot k = .reserved h → t.slot k = .formed h .aborted (detachReply reason 0 (s.session n))
  signalled : ∀ g h, (s.port p).signal = some g → s.slot g.slot = .reserved h → t.slot g.slot =
    .formed h .aborted (bytesOf 1 g.kind.code ++ bytesOf 2 g.duration ++ bytesOf 2 g.elapsed)
  loaded : ∀ l h, (s.port p).pendingLoad = some l → s.slot l.slot = .reserved h → t.slot l.slot = .formed h .aborted []
  noticed : ∀ e, reason.event = some e → ∀ n ∈ s.sessionsOn p,
    (∃ m ∈ t.notices, m.dst = s.addressOf n ∧ m.body = .sessionEvent n (s.session n).tag p e none)
      ∨ t.noticesLost = true ∨ ∃ m ∈ t.notices, m.lost = true
  ordered : ∀ e, reason.event = some e → s.supervisor = none → s.notices.length + (s.sessionsOn p).length ≤ 32 →
    ∃ before, t.notices.map (fun m => (m.dst, m.body)) = before ++ (s.sessionsOn p).map fun n =>
      (s.addressOf n, .sessionEvent n (s.session n).tag p e none)
  holds : s.waitList = [] → HoldsGone (holdsReleased p s) s t
  others : ∀ q, q ≠ p → PortStands (s.port q) (t.port q)
  waits : p ∉ t.waitList
  rest : PartStands s t

/-- PORT_CONTROL DISABLE (R54): a DISABLED port is answered OK and nothing changes; any other is stopped, releases everything it
holds and is DISABLED with its lines deasserted, keeping its entry, epoch, both offsets, conditions, counters, pattern record,
staged values, debounce and last snapshot. The data of the ABORTED DETACH and signal replies, and that the port's own waiting byte
is discarded before its sessions end, are the model's (log 21, 44). -/
def Obligations.DisableReleasesThePort : Prop :=
  ∀ (s : State) (f : RelayFrame) (k : SlotNo) (c : Request), Passes s (portControlRow 1) f k c →
    (48 ≤ c.byte 0 → Answers .portControlDisable s f k .badValue [] s.part) ∧
    ∀ p : PortNo, c.byte 0 = p.val →
      let x := s.part.port p
      ((s.part.port p).portState = .disabled → Answers .portControlDisable s f k .ok (bytesOf 1 0 ++ [x.epoch]) s.part) ∧
      ((s.part.port p).portState ≠ .disabled → s.slotsHeld → Ends .portControlDisable s fun u => ∃ t : Part,
        PortStopped p .portDisabled (claimed s (portControlRow 1) f k c) t ∧
        t.port p = { x with
          portState := .disabled, engine := engineAtStart, pendingLoad := none, reconfigTimer := none, openBlock := none
          gapTimer := none, blockQueue := [], chain := [], headHold := .noHold, holdTimer := none
          matchPos := Vector.replicate 16 0, signal := none, lines := .allDeassert, portUse := (t.port p).portUse } ∧
        u.part = { t with slots := t.slots.set k (.formed f.header .ok (bytesOf 1 0 ++ [x.epoch])), formed := t.formed ++ [k] } ∧
        u.pending = s.pending ∧ u.uplink = { s.uplink with rxFifo := s.uplink.rxFifo.tail })

/-- PORT_CONTROL RESET (R55): the port is stopped with reason PORT_RESET as DISABLE stops one, with that reason in its sessions'
notices and in their ABORTED replies, and its own reply behind those; its counters, offsets, pattern record and staged values are
cleared and its epoch rises; a DISABLED port stays DISABLED with every condition clear, and any other starts again, its engine from
the values of R20 with its pause then evaluated (R21), its AUTO lines at their running levels and its MANUAL lines at DEASSERT (R169),
LOCAL set when it enters LOCAL_HOLD and PAUSE when its account is at its threshold, every other condition clear; nothing else
changes. The data of
the ABORTED replies, and that the port's own waiting byte is discarded first, are the model's (log 21, 44). -/
def Obligations.ResetClearsThePort : Prop :=
  ∀ (s : State) (f : RelayFrame) (k : SlotNo) (c : Request), Passes s (portControlRow 2) f k c →
    (48 ≤ c.byte 0 → Answers .portControlReset s f k .badValue [] s.part) ∧
    ∀ p : PortNo, c.byte 0 = p.val → s.slotsHeld →
      let x := s.part.port p
      let present := x.profile.presenceSource = .dsr ∧ x.dsrDebounced = true
      Ends .portControlReset s fun u => ∃ t : Part,
        PortStopped p .portReset (claimed s (portControlRow 2) f k c) t ∧
        let y := u.part.port p
        (∃ more, u.part.notices = t.notices ++ more) ∧ y.portUse = (t.port p).portUse ∧
        (∀ q, q ≠ p → u.part.port q = t.port q) ∧
        u.part = { t with
          ports := u.part.ports, notices := u.part.notices, noticesLost := u.part.noticesLost
          slots := t.slots.set k (.formed f.header .ok (bytesOf 1 y.portState.code ++ [x.epoch + 1]))
          formed := t.formed ++ [k] } ∧
        (y.profile = x.profile ∧ y.epoch = x.epoch + 1 ∧ y.streamOffset = 0 ∧ y.keyOffset = 0 ∧ y.pendingLoad = none ∧
          y.reconfigTimer = none ∧ y.counters = .zero ∧ y.pattern = none ∧ y.staging = .empty ∧ y.openBlock = none ∧
          y.gapTimer = none ∧ y.blockQueue = [] ∧ y.chain = [] ∧ y.headHold = .noHold ∧ y.holdTimer = none ∧
          y.signal = none ∧ y.matchPos = Vector.replicate 16 0 ∧ y.dsrDebounced = x.dsrDebounced ∧
          y.debounceTimer = x.debounceTimer ∧ y.pins = x.pins ∧ y.lastSnap = x.lastSnap) ∧
        (x.portState = .disabled → y.portState = .disabled ∧ y.conditions = 0 ∧ y.engine = engineAtStart ∧ y.lines = .allDeassert) ∧
        (x.portState ≠ .disabled → y.portState = (if present then .localHold else .active) ∧
          y.conditions = (if present then Condition.localPresence.bit else 0)
            ||| (if y.profile.pauseOn ≤ y.portUse then Condition.pause.bit else 0) ∧
          (y.portUse < y.profile.pauseOn → y.engine = engineAtStart) ∧
          y = paused (started { y with conditions := 0, lines := .allDeassert })) ∧
        u.pending = s.pending ∧ u.uplink = { s.uplink with rxFifo := s.uplink.rxFifo.tail }

/-- CLEAR (R180): a port above 47 gives BAD_VALUE, a set beyond the ten conditions BAD_FORMAT; otherwise, in every port state and
image state, the conditions of the set become clear and nothing else changes, and the reply carries the conditions before and
after. A condition so cleared is set again by its next cause, which is a change from clear to set. -/
def Obligations.ClearReportsBeforeAndAfter : Prop :=
  (∀ (s : State) (f : RelayFrame) (k : SlotNo) (c : Request), s.nextFrame = some (f, k) → f.kind = 0x0F →
    s.part.openRequest f k = some c → f.body.length = 3 → 2 ^ 10 ≤ numAt f.body 1 2 →
    Answers .clear s f k .badFormat [] s.part) ∧
  (∀ (s : State) (f : RelayFrame) (k : SlotNo) (c : Request), s.nextFrame = some (f, k) → f.kind = 0x0F →
    s.part.openRequest f k = some c → f.body.length = 3 → numAt f.body 1 2 < 2 ^ 10 →
    (c.configure = false → Answers .clear s f k .noRight [] s.part) ∧
    (c.configure = true → 48 ≤ c.byte 0 → Answers .clear s f k .badValue [] s.part) ∧
    (c.configure = true → ∀ p : PortNo, c.byte 0 = p.val →
      let before := (s.part.port p).conditions
      let after := before &&& ~~~(BitVec.ofNat 10 (numAt f.body 1 2))
      Answers .clear s f k .ok (bytesOf 2 before.toNat ++ bytesOf 2 after.toNat)
        (s.part.setPort p { s.part.port p with conditions := after }))) ∧
  (∀ (s : Part) (p : PortNo) (x : Condition), hasCondition (s.port p).conditions x = false →
    hasCondition ((setCondition p x s).port p).conditions x = true ∧
    (∀ dst, hasCondition (s.port p).profile.noticeMask x = true → s.supervisor = some dst → s.notices.length < 32 →
      ∃ m, (setCondition p x s).notices = s.notices ++ [m] ∧ m.dst = dst ∧ m.lost = s.noticesLost ∧
        m.body = .portCondition p (s.port p).epoch x ((s.port p).conditions ||| x.bit)
          (if x = .pattern then (s.port p).pattern else none)))

/-- RESUME (R59) in the order of its checks: it returns a port in LOCAL_HOLD to ACTIVE; no session and no condition changes. -/
def Obligations.ResumeReturnsToActive : Prop :=
  ∀ (s : State) (f : RelayFrame) (k : SlotNo) (c : Request), Passes s resumeRow f k c →
    (48 ≤ c.byte 0 → Answers .resume s f k .badValue [] s.part) ∧
    ∀ p : PortNo, c.byte 0 = p.val →
      let x := s.part.port p
      let own := c.configure = true ∨ (c.mask.getLsbD p.val = true ∧ (c.maxRole = .own ∨ c.maxRole = .take))
      let present := x.profile.presenceSource = .dsr ∧ x.dsrDebounced = true
      (¬own → Answers .resume s f k .noRight [] s.part) ∧
      (own → x.portState ≠ .localHold → Answers .resume s f k .badState [] s.part) ∧
      (own → x.portState = .localHold → x.pendingLoad ≠ none → Answers .resume s f k .busy [] s.part) ∧
      (own → x.portState = .localHold → x.pendingLoad = none → present → Answers .resume s f k .localPresence [] s.part) ∧
      (own → x.portState = .localHold → x.pendingLoad = none → ¬present →
        Answers .resume s f k .ok [] (s.part.setPort p { x with portState := .active }))

/-! ### Tables -/

/-- The rows of LOAD with the number of entries each table has and whether a record passes its field checks (R17). -/
def Sys2Proof.Claims.loadRows : List (Instr × RequestRow × Nat × (List Byte → Bool)) :=
  [(.loadPeer, loadRow 0 20, 32, fun r => (Peer.ofBytes r).isSome),
   (.loadProfile, loadRow 1 40, 48, fun r => (Profile.ofBytes r).isSome),
   (.loadTrigger, loadRow 2 16, 16, fun r => (Trigger.ofBytes r).isSome),
   (.loadTap, loadRow 3 20, 4, fun r => (TapEntry.ofBytes r).isSome),
   (.loadSystem, loadRow 4 12, 256, fun r => (SystemRecord.ofBytes r).isSome)]

/-- The record of a LOAD has every field that is not clamped within its values (R9, R43, R92, R145, R167, R188, R190). -/
def Sys2Proof.Claims.recordFits (i : Instr) (r : List Byte) : Prop :=
  match i with
  | .loadPeer => numAt r 0 1 ≤ 1 ∧ numAt r 9 8 < 2 ^ 48 ∧ numAt r 17 1 ≤ 2 ∧ numAt r 18 1 ≤ 2 ∧ numAt r 19 1 < 8
  | .loadProfile => profileFits r
  | .loadTrigger => numAt r 0 1 ≤ 1 ∧ (numAt r 0 1 = 1 → 1 ≤ numAt r 1 1 ∧ numAt r 1 1 ≤ 12) ∧ numAt r 14 1 < 8 ∧ numAt r 15 1 ≤ 7
  | .loadTap => numAt r 0 1 ≤ 1 ∧ numAt r 1 1 < 32 ∧ numAt r 2 1 ≤ 2 ∧ numAt r 3 8 < 2 ^ 48 ∧
      (numAt r 11 1 < 32 ∨ numAt r 11 1 = 255) ∧ numAt r 12 1 ≤ 1
  | .loadSystem => systemFits r
  | _ => False

/-- Every LOAD is BUSY while the image state is SAVING; then an index beyond its table gives BAD_VALUE, and then a record with a
field outside its values (a SYSTEM load takes any index); nothing is stored (R17). The values are those of R9, R43, R92, R145
and R167, written out above. A profile is ADJUSTED where the AUX pulse length, block limit, idle gap or divisor was clamped or
the rate error exceeds 10,000 ppm (R43), and a tap where its weight or queue limit was clamped. -/
def Obligations.LoadsAreCheckedInOrder : Prop :=
  (∀ e ∈ loadRows, ∀ r, e.2.2.2 r = true ↔ recordFits e.1 r) ∧
  (∀ r e b, Profile.ofBytes r = some (e, b) → (b = true ↔
    (numAt r 15 2 < 10 ∨ 10000 < numAt r 15 2 ∨ numAt r 27 2 < 16 ∨ 512 < numAt r 27 2 ∨ numAt r 29 1 = 0 ∨
      (29491200 + numAt r 1 3) / (2 * numAt r 1 3) < 8 ∨ 524287 < (29491200 + numAt r 1 3) / (2 * numAt r 1 3) ∨
      10000 < e.rateError.natAbs))) ∧
  (∀ r e b, TapEntry.ofBytes r = some (e, b) → (b = true ↔
    (numAt r 14 1 < 1 ∨ 15 < numAt r 14 1 ∨ numAt r 15 2 < 4 ∨ 255 < numAt r 15 2))) ∧
  ∀ e ∈ loadRows, ∀ (s : State) (f : RelayFrame) (k : SlotNo) (c : Request), Passes s e.2.1 f k c →
    (s.part.imageState = .saving → Answers e.1 s f k .busy [] s.part) ∧
    (s.part.imageState ≠ .saving → e.2.2.1 ≤ c.byte 1 → Answers e.1 s f k .badValue [] s.part) ∧
    (s.part.imageState ≠ .saving → c.byte 1 < e.2.2.1 → e.2.2.2 (c.body.drop 2) = false →
      Answers e.1 s f k .badValue [] s.part)

/-- LOAD PEER (R9 to R12): a valid entry whose identity another index holds gives BAD_VALUE. Otherwise the entry is replaced
and the reply carries it; the commissioning state is recomputed. An identity change ends the entry's sessions, disables the taps that
name it as collector and drops it as supervisor; with the identity kept, a port that left the mask ends its sessions, a max role that
fell to OBSERVE demotes its owners, a collector or supervisor field now no disables the taps or drops the setting. A not-valid entry
over a not-valid one only is stored. Commissioning that goes off brings the sessions of every valid entry into line with its rights
(R12). Each session that ends is told so, with PEER_REMOVED, and each owner demoted, with DEMOTED and no taker, at the address its
entry had before the load, the old one; its ABORTED DETACH reply is formed (R141), with data that are the model's reading (log 21). Where commissioning does not go off, the replies,
and with room and no supervisor the notices, stand in session order, ends first. Everything else of the sessions, the other taps and
the Trigger Table stand. What counts as an identity change and as a lowered right, and the order of the demotions, are the model's
(log 27, 50). -/
def Obligations.LoadPeerReplacesTheEntry : Prop :=
  ∀ (s : State) (f : RelayFrame) (k : SlotNo) (c : Request) (i : PeerNo) (e : Peer), Passes s (loadRow 0 20) f k c →
    c.byte 1 = i.val → s.part.imageState ≠ .saving → Peer.ofBytes (c.body.drop 2) = some e →
    let old := s.part.peer i
    let same := old.valid = e.valid ∧ old.mac = e.mac ∧ old.peerId = e.peerId
    let changed := (old.valid = true ∨ e.valid = true) ∧ ¬same
    let kept := old.valid = true ∧ same
    let fell := kept ∧ old.maxRole ≠ .observe ∧ e.maxRole = .observe
    ((∃ j, j ≠ i ∧ e.valid = true ∧ (s.part.peer j).valid = true ∧ (s.part.peer j).mac = e.mac ∧ (s.part.peer j).peerId = e.peerId) →
      Answers .loadPeer s f k .badValue [] s.part) ∧
    ((∀ j, j ≠ i → ¬(e.valid = true ∧ (s.part.peer j).valid = true ∧ (s.part.peer j).mac = e.mac ∧
        (s.part.peer j).peerId = e.peerId)) → s.slotsHeld → Ends .loadPeer s fun u =>
      let off := s.part.commissioning = true ∧ u.part.commissioning = false
      let ends := fun n => let x := s.part.session n
        x.state ≠ .free ∧
        ((x.peer = i ∧ (changed ∨ (kept ∧ old.mask.getLsbD x.port.val = true ∧ e.mask.getLsbD x.port.val = false))) ∨
          (off ∧ (u.part.peer x.peer).valid = true ∧ (u.part.peer x.peer).mask.getLsbD x.port.val = false))
      let lowered := fun n => let x := s.part.session n
        x.state ≠ .free ∧ ¬ends n ∧ ((x.peer = i ∧ fell) ∨
          (off ∧ (u.part.peer x.peer).valid = true ∧ (u.part.peer x.peer).maxRole = .observe))
      let told := fun n event => ∃ m ∈ u.part.notices, m.dst = s.part.addressOf n ∧
        m.body = .sessionEvent n (s.part.session n).tag (s.part.session n).port event none
      let lost := u.part.noticesLost = true ∨ ∃ m ∈ u.part.notices, m.lost = true
      (u.part.peer i = e ∧ (∀ j, j ≠ i → u.part.peer j = s.part.peer j) ∧ u.part.triggers = s.part.triggers ∧
        u.part.slot k = .formed f.header .ok e.bytes ∧ u.part.formed.getLast? = some k ∧ u.pending = s.pending ∧
        u.uplink = { s.uplink with rxFifo := s.uplink.rxFifo.tail } ∧
        (∀ p, PortStands (s.part.port p) (u.part.port p)) ∧
        u.part.commissioning =
          (s.part.commissioningStrap && !allPeers.any fun j => (u.part.peer j).valid && (u.part.peer j).configure)) ∧
      (∀ n, (ends n → u.part.session n = .free ∧ u.part.queue (sessionQueue n) = []) ∧
        (¬ends n → u.part.session n = { s.part.session n with
          role := if lowered n then .observer else (s.part.session n).role })) ∧
      (∀ n, (ends n → told n .peerRemoved ∨ lost) ∧
        (lowered n → (s.part.session n).role = .owner → told n .demoted ∨ lost)) ∧
      (∀ n j h, ends n → (s.part.session n).drainSlot = some j → s.part.slot j = .reserved h →
        u.part.slot j = .formed h .aborted (detachReply .peerRemoved 0 (s.part.session n)) ∧ j ∈ u.part.formed) ∧
      (∀ j, j ≠ k → (∀ n, ends n → (s.part.session n).drainSlot ≠ some j) → u.part.slot j = s.part.slot j) ∧
      (¬off → ∃ ended demoted : List SessionNo, ended.Pairwise (· < ·) ∧ demoted.Pairwise (· < ·) ∧
        (∀ n, n ∈ ended ↔ ends n) ∧ (∀ n, n ∈ demoted ↔ (lowered n ∧ (s.part.session n).role = .owner)) ∧
        u.part.formed = s.part.formed ++ ended.filterMap (fun n => (s.part.session n).drainSlot) ++ [k] ∧
        (s.part.system.supervisor = none → s.part.notices.length + ended.length + demoted.length ≤ 32 →
          ∃ before, u.part.notices.map (fun m => (m.dst, m.body)) = before ++
            (ended.map (fun n => (n, EventReason.peerRemoved)) ++ demoted.map fun n => (n, EventReason.demoted)).map fun r =>
              (s.part.addressOf r.1, .sessionEvent r.1 (s.part.session r.1).tag (s.part.session r.1).port r.2 none))) ∧
      (∀ t, (s.part.tap t).entry.enabled = true → (s.part.tap t).entry.collector = i.val →
        (changed ∨ (kept ∧ old.collector = true ∧ e.collector = false)) →
        u.part.tap t = { s.part.tap t with entry := { (s.part.tap t).entry with enabled := false } } ∧
        u.part.queue (tapQueue t) = []) ∧
      (∀ t, ((s.part.tap t).entry.enabled = false ∨ (s.part.tap t).entry.collector ≠ i.val ∨
          (¬changed ∧ ¬(kept ∧ old.collector = true ∧ e.collector = false))) →
        u.part.tap t = s.part.tap t ∧ u.part.queue (tapQueue t) = s.part.queue (tapQueue t)) ∧
      u.part.system = { s.part.system with
        supervisor := if s.part.system.supervisor = some i ∧ (changed ∨ (kept ∧ old.supervisor = true ∧ e.supervisor = false))
          then none else s.part.system.supervisor })

/-- The accounting checks of a profile load (R47). -/
def Sys2Proof.Claims.accounting (s : Part) (p : PortNo) (e : Profile) : Option ResultCode :=
  let x := s.port p
  let sigma := (s.ports.toList.map fun y => y.profile.reserve).sum - x.profile.reserve + e.reserve
  if e.reserve = x.profile.reserve ∧ e.shareLimit = x.profile.shareLimit then none
  else if x.portUse ≠ 0 then some .inUse
  else if 2048 < sigma ∨ 4032 - sigma < s.sharedInUse then some .badValue
  else none

/-- The running port as an apply of entry `e` leaves it whose history limit trims nothing, before presence acts (R38, R52, R106, R169):
the receiver waits for mark, the console counts as running, the XON owed on leaving flow SOFT is pending, and nothing else; the lines
take up the new controls; the pause is evaluated against the new thresholds; entering flow SOFT with the pause ASSERTED, XOFF is
pending unless it was sent last. -/
def Sys2Proof.Claims.takenUp (x : Port) (e : Profile) : Port :=
  let y := { x with
    profile := e
    engine := { x.engine with
      receiver := .waitMark, consoleStopped := false
      pendingFlow := if x.profile.flow = FlowMode.soft ∧ x.engine.lastFlow = FlowChar.xoff then some .xon else none } }
  let z := paused { y with lines := linesOf y }
  if e.flow = .soft ∧ z.engine.pause = .asserted ∧ z.engine.lastFlow = .xon then
    { z with engine := { z.engine with pendingFlow := some .xoff } }
  else z

/-- The load of port p is applied and its entry finds presence asserted, on a port not in LOCAL_HOLD yet (R52, R57). -/
abbrev Sys2Proof.Claims.metByPresence (p : PortNo) (l : PendingLoad) (s : Part) : Prop :=
  accounting s p l.entry = none ∧ l.entry.presenceSource = .dsr ∧ (s.port p).dsrDebounced = true ∧ (s.port p).portState ≠ .localHold

/-- A profile load that has come to its moment, from part `s` to part `t`, while no port waits for a cell (R38, R50 to R52, R57, R90,
R106, R111): with its accounting checks failed the old entry stays and the reply is
the refusal; otherwise the entry is in effect, the open block has closed with PORT_EVENT and stands last in the Block Queue, the
match positions are 0, a HELD or RETRY head is NONE, the Output Chain is trimmed, the receiver waits for mark and the console
counts as running, and the reply is FLUSHED with the count of bytes removed, ADJUSTED or OK. The port leaves RECONFIG, for
LOCAL_HOLD when the new entry finds presence asserted. The pause is that of the new thresholds, for the account before the trim and
then as the trim leaves it (R35, R38); the lines are those of the new controls, a signal that runs on keeping its line (R51, R169);
where the trim frees nothing, the engine is exactly as `takenUp` has it, and has then loaded what it may (R23). Where the new entry
finds presence asserted LOCAL is set, the owner is demoted, the FIFO flushed and a signal ended early, its ABORTED reply ahead of the
load's and AUX at DEASSERT (R57, R174; a line moved to MANUAL: log 36, 55). A refused load leaves engine and lines, but for that load. -/
structure Sys2Proof.Claims.LoadFinished (p : PortNo) (l : PendingLoad) (s t : Part) : Prop where
  pending : (t.port p).pendingLoad = none ∧ (t.port p).reconfigTimer = none
  kept : (t.port p).epoch = (s.port p).epoch ∧ (t.port p).streamOffset = (s.port p).streamOffset ∧
    (t.port p).keyOffset = (s.port p).keyOffset ∧ (t.port p).staging = (s.port p).staging ∧ (t.port p).pins = (s.port p).pins
  refused : ∀ code, accounting s p l.entry = some code → (t.port p).profile = (s.port p).profile ∧
    (t.port p).portState = (if (s.port p).portState = .reconfig then .active else (s.port p).portState) ∧
    (t.port p).engine = (s.port p).load.engine ∧ (t.port p).lines = (s.port p).lines ∧
    (∀ h, s.slot l.slot = .reserved h → t.slot l.slot = .formed h code [])
  applied : accounting s p l.entry = none →
    (t.port p).profile = l.entry ∧ (t.port p).openBlock = none ∧ (t.port p).gapTimer = (if (s.port p).openBlock = none then (s.port p).gapTimer else none) ∧
    (t.port p).blockQueue = (s.port p).blockQueue ++ (s.port p).openBlock.toList ∧
    (t.port p).matchPos = Vector.replicate 16 0 ∧ t.chainCells p ≤ l.entry.historyLimit ∧
    (t.port p).engine.receiver = .waitMark ∧ (t.port p).engine.consoleStopped = false ∧
    (t.port p).headHold ≠ .held ∧ ((t.port p).headHold = .forfeit ↔ (s.port p).headHold = .forfeit) ∧
    (t.port p).portState = (if l.entry.presenceSource = .dsr ∧ (s.port p).dsrDebounced = true then .localHold
      else if (s.port p).portState = .reconfig then .active else (s.port p).portState) ∧
    (∀ h, s.slot l.slot = .reserved h → t.slot l.slot = .formed h
      (if l.flushed ≠ none then .flushed else if l.adjusted then .adjusted else .ok)
      (l.entry.bytes ++ (bytesOf 4 l.entry.d8 ++ bytesOf 4 l.entry.achieved ++ bytesOfInt l.entry.rateError
        ++ bytesOf 1 l.entry.charBits ++ [0, 0, 0]) ++ (l.flushed.map (bytesOf 2)).getD []))
  pause : accounting s p l.entry = none → (s.port p).portState ≠ .disabled → l.entry.pauseOff < l.entry.pauseOn →
    let x := s.port p
    let asserted := if x.engine.pause = .released then l.entry.pauseOn ≤ x.portUse else l.entry.pauseOff < x.portUse
    (t.port p).engine.pause = (if asserted ∧ l.entry.pauseOff < (t.port p).portUse then .asserted else .released) ∧
    (x.engine.pause = .released → l.entry.pauseOn ≤ x.portUse → hasCondition (t.port p).conditions .pause = true)
  lines : accounting s p l.entry = none → (s.port p).portState ≠ .disabled →
    (t.port p).lines = linesOf { t.port p with
      lines := if metByPresence p l s ∧ (s.port p).signalIs .auxPulse = true then { (s.port p).lines with aux := .deassert }
               else (s.port p).lines }
  engine : accounting s p l.entry = none → (s.port p).portState ≠ .disabled → s.chainCells p ≤ l.entry.historyLimit →
    let z := takenUp (s.port p) l.entry
    (t.port p).engine =
      (Port.load (if metByPresence p l s then { z with signal := none, engine := { z.engine with fifo := [] } } else z)).engine
  presence : metByPresence p l s → hasCondition (t.port p).conditions .localPresence = true
  sessions : (∀ n m, s.owns n p = true → s.owns m p = true → n = m) → ∀ n, t.session n =
    if metByPresence p l s ∧ s.owns n p = true then { s.session n with role := .observer } else s.session n
  signal : (t.port p).signal = if metByPresence p l s then none else (s.port p).signal
  signalled : ∀ g h, metByPresence p l s → (s.port p).signal = some g → s.slot g.slot = .reserved h →
    t.slot g.slot = .formed h .aborted (bytesOf 1 g.kind.code ++ bytesOf 2 g.duration ++ bytesOf 2 g.elapsed)
  reply : ∀ h, s.slot l.slot = .reserved h → t.formed = s.formed
    ++ (if metByPresence p l s then ((s.port p).signal.map Signal.slot).toList else []) ++ [l.slot]
  memory : t.mem = s.mem
  others : ∀ q, q ≠ p → PortStands (s.port q) (t.port q)
  queues : t.queues = s.queues

/-- LOAD PROFILE by the state of its port (R46 to R50): BUSY in RECONFIG, BAD_STATE in LOCAL_HOLD, the refusals of the
accounts; on a DISABLED port the entry is stored at once; on an ACTIVE port it waits in RECONFIG, with its slot reserved and
the limit running, until the transmitter is idle, or applies at once when it is. The order inside an apply is the model's
reading (log 17, 18). -/
def Obligations.LoadProfileStoresOrWaits : Prop :=
  ∀ (s : State) (f : RelayFrame) (k : SlotNo) (c : Request) (p : PortNo) (e : Profile) (adjusted : Bool),
    Passes s (loadRow 1 40) f k c → c.byte 1 = p.val → s.part.imageState ≠ .saving →
    Profile.ofBytes (c.body.drop 2) = some (e, adjusted) →
    let x := s.part.port p
    let idle := x.engine.fifo = [] ∧ x.engine.shift = .empty ∧ x.engine.pendingFlow = none ∧ x.signal = none
    let waiting := { x with portState := .reconfig, reconfigTimer := some 2000,
                            pendingLoad := some { entry := e, adjusted, slot := k, flushed := none } }
    (x.portState = .reconfig → Answers .loadProfile s f k .busy [] s.part) ∧
    (x.portState = .localHold → Answers .loadProfile s f k .badState [] s.part) ∧
    ((x.portState = .disabled ∨ x.portState = .active) → ∀ code, accounting s.part p e = some code →
      Answers .loadProfile s f k code [] s.part) ∧
    (x.portState = .disabled → accounting s.part p e = none →
      Answers .loadProfile s f k (if adjusted then .adjusted else .ok)
        (e.bytes ++ (bytesOf 4 e.d8 ++ bytesOf 4 e.achieved ++ bytesOfInt e.rateError ++ bytesOf 1 e.charBits ++ [0, 0, 0]))
        (s.part.setPort p { x with profile := e, matchPos := Vector.replicate 16 0 })) ∧
    (x.portState = .active → accounting s.part p e = none → ¬idle → Ends .loadProfile s fun u =>
      Reserves s u f k ∧ Leaves u (s.part.setPort p waiting)) ∧
    (x.portState = .active → accounting s.part p e = none → idle → s.part.waitList = [] → Ends .loadProfile s fun u =>
      LoadFinished p { entry := e, adjusted, slot := k, flushed := none }
        ((claimed s (loadRow 1 40) f k c).setPort p waiting) u.part ∧
      u.pending = s.pending ∧ u.uplink = { s.uplink with rxFifo := s.uplink.rxFifo.tail })

/-- LOAD TRIGGER (R92) replaces the entry, with the pattern bytes beyond its length 0, and sets its match position to 0 on every
port, leaving the other positions and everything else as they were. LOAD SYSTEM (R167) replaces the settings and clamps the shaper
level into the new burst. Each is answered OK with the entry as stored. -/
def Obligations.LoadsOfTriggerAndSystemReplace : Prop :=
  (∀ (s : State) (f : RelayFrame) (k : SlotNo) (c : Request) (t : TriggerNo) (e : Trigger), Passes s (loadRow 2 16) f k c →
    c.byte 1 = t.val → s.part.imageState ≠ .saving → Trigger.ofBytes (c.body.drop 2) = some e →
    (∀ j : Fin 12, e.length ≤ j.val → e.pattern[j] = 0) ∧
    Ends .loadTrigger s fun u => Replies s u f k .ok e.bytes ∧
      u.part.trigger t = e ∧ (∀ t', t' ≠ t → u.part.trigger t' = s.part.trigger t') ∧
      (∀ p, u.part.port p = { s.part.port p with matchPos := (s.part.port p).matchPos.set t 0 }) ∧
      Leaves u { s.part with triggers := u.part.triggers, ports := u.part.ports }) ∧
  (∀ (s : State) (f : RelayFrame) (k : SlotNo) (c : Request) (e : SystemRecord), Passes s (loadRow 4 12) f k c →
    s.part.imageState ≠ .saving → SystemRecord.ofBytes (c.body.drop 2) = some e →
    Ends .loadSystem s fun u =>
      u.pending = s.pending ∧
      u.uplink = { s.uplink with
        rxFifo := s.uplink.rxFifo.tail
        level := if s.uplink.level < -(e.burst : Int) then -(e.burst : Int)
                 else if (e.burst : Int) < s.uplink.level then e.burst else s.uplink.level } ∧
      u.part.slot k = .formed f.header .ok e.bytes ∧ (∀ j, j ≠ k → u.part.slot j = s.part.slot j) ∧
      u.part.formed = s.part.formed ++ [k] ∧ Leaves u { s.part with system := e })

/-- LOAD TAP (R145 to R147, R78): enabling it toward an entry that may not collect, or marked-only without groups, gives BAD_VALUE.
Otherwise the entry is replaced; an enabled tap that is disabled, or whose collector changes, loses its whole queue, and the reply
counts it; a kept queue is cut to the new limit from its newest end, and, while no port waits for a cell, each entry so released
counts as a dropped copy with its bytes in the gap count of its kind (R78, R154); the counters return to 0 when the tap is newly
enabled or its collector changes. Other taps and queues, and all sessions, stand. -/
def Obligations.LoadTapFreshCollector : Prop :=
  ∀ (s : State) (f : RelayFrame) (k : SlotNo) (c : Request) (t : TapNo) (e : TapEntry) (clamped : Bool),
    Passes s (loadRow 3 20) f k c → c.byte 1 = t.val → s.part.imageState ≠ .saving →
    TapEntry.ofBytes (c.body.drop 2) = some (e, clamped) →
    let old := (s.part.tap t).entry
    let collector := s.part.peer (Fin.ofNat 32 e.collector)
    let eligible := collector.valid = true ∧ collector.collector = true ∧ (e.markedOnly = .no ∨ e.groupMask ≠ 0)
    let drops := old.enabled = true ∧ (e.enabled = false ∨ old.collector ≠ e.collector)
    let fresh := e.enabled = true ∧ (old.enabled = false ∨ old.collector ≠ e.collector)
    let length := (s.part.queue (tapQueue t)).length
    (e.enabled = true → ¬eligible → Answers .loadTap s f k .badValue [] s.part) ∧
    ((e.enabled = true → eligible) → Ends .loadTap s fun u =>
      Replies s u f k (if clamped then .adjusted else .ok) (e.bytes ++ bytesOf 2 (if drops then length else 0)) ∧
      (u.part.tap t).entry = e ∧
      (fresh → length ≤ e.queueLimit ∨ drops → (u.part.tap t).counters = .zero) ∧
      (¬fresh → length ≤ e.queueLimit ∨ drops → (u.part.tap t).counters = (s.part.tap t).counters) ∧
      (¬fresh → ¬drops → e.queueLimit < length → s.part.waitList = [] →
        ((s.part.queue (tapQueue t)).map Ref.block).Nodup →
        (∀ r ∈ s.part.queue (tapQueue t), (s.part.block r.block).isSome = true) →
        let cut := ((s.part.queue (tapQueue t)).drop e.queueLimit).filterMap fun r => s.part.block r.block
        let lengths := fun kind : BlockKind => ((cut.filter fun b => b.kind == kind).map Block.length).sum
        (u.part.tap t).counters = { (s.part.tap t).counters with
          copiesDropped := (s.part.tap t).counters.copiesDropped + BitVec.ofNat 32 (length - e.queueLimit)
          outputGap := (s.part.tap t).counters.outputGap + BitVec.ofNat 32 (lengths .output)
          keyGap := (s.part.tap t).counters.keyGap + BitVec.ofNat 32 (lengths .keys) }) ∧
      (∀ t', t' ≠ t → u.part.tap t' = s.part.tap t') ∧
      u.part.queue (tapQueue t) = (if drops then [] else (s.part.queue (tapQueue t)).take e.queueLimit) ∧
      (∀ q, q ≠ tapQueue t → u.part.queue q = s.part.queue q) ∧
      u.part.sessions = s.part.sessions ∧ u.part.peers = s.part.peers ∧ u.part.triggers = s.part.triggers ∧
      u.part.system = s.part.system ∧ (∀ p, PortStands (s.part.port p) (u.part.port p)) ∧
      (s.part.waitList = [] → u.part.mem = s.part.mem))

/-- READ (R18): an index beyond the table gives BAD_VALUE, then a missing right NO_RIGHT; otherwise the entry in effect is returned,
a profile with its derived fields and a tap with its live state; whatever the image state, nothing changes. At reset the entries
are not valid or not enabled, with their other fields at their power-on values; that State.reset has no image is the model's
choice (log 8). -/
def Obligations.ReadsReturnTheEntry : Prop :=
  (∀ (s : State) (f : RelayFrame) (k : SlotNo) (c : Request),
    (Passes s (readRow 0) f k c → (32 ≤ c.byte 1 → Answers .readPeer s f k .badValue [] s.part) ∧
      ∀ i : PeerNo, c.byte 1 = i.val →
        (c.configure = false → Answers .readPeer s f k .noRight [] s.part) ∧
        (c.configure = true → Answers .readPeer s f k .ok (s.part.peer i).bytes s.part)) ∧
    (Passes s (readRow 1) f k c → (48 ≤ c.byte 1 → Answers .readProfile s f k .badValue [] s.part) ∧
      ∀ p : PortNo, c.byte 1 = p.val → let e := (s.part.port p).profile
        (c.configure = false → c.mask.getLsbD p.val = false → Answers .readProfile s f k .noRight [] s.part) ∧
        ((c.configure = true ∨ c.mask.getLsbD p.val = true) → Answers .readProfile s f k .ok
          (e.bytes ++ (bytesOf 4 e.d8 ++ bytesOf 4 e.achieved ++ bytesOfInt e.rateError ++ bytesOf 1 e.charBits ++ [0, 0, 0]))
          s.part)) ∧
    (Passes s (readRow 2) f k c → (16 ≤ c.byte 1 → Answers .readTrigger s f k .badValue [] s.part) ∧
      ∀ t : TriggerNo, c.byte 1 = t.val →
        (c.configure = false → Answers .readTrigger s f k .noRight [] s.part) ∧
        (c.configure = true → Answers .readTrigger s f k .ok (s.part.trigger t).bytes s.part)) ∧
    (Passes s (readRow 3) f k c → (4 ≤ c.byte 1 → Answers .readTap s f k .badValue [] s.part) ∧
      ∀ t : TapNo, c.byte 1 = t.val → let n := (s.part.tap t).counters
        (c.configure = false → Answers .readTap s f k .noRight [] s.part) ∧
        (c.configure = true → Answers .readTap s f k .ok
          ((s.part.tap t).entry.bytes ++ (bytesOf 2 (s.part.queue (tapQueue t)).length ++ bytesOf 4 n.copiesQueued.toNat
            ++ bytesOf 4 n.copiesDropped.toNat ++ bytesOf 4 n.outputGap.toNat ++ bytesOf 4 n.keyGap.toNat)) s.part)) ∧
    (Passes s (readRow 4) f k c →
      (c.configure = false → Answers .readSystem s f k .noRight [] s.part) ∧
      (c.configure = true → Answers .readSystem s f k .ok s.part.system.bytes s.part))) ∧
  (∀ i, State.reset.part.peer i = .empty) ∧ (∀ p, (State.reset.part.port p).profile = .default) ∧
  (∀ t, State.reset.part.trigger t = .empty) ∧ (∀ t, State.reset.part.tap t = .empty)

/-- STATUS (R19, R139) answers with live values taken as the request is taken, its own slot counted as taken and the session's
idle timer restarted, and changes nothing else; a port above 47 gives BAD_VALUE, and without the configure right or the port
in the mask NO_RIGHT. Two codes, the idle time left, the count of the own slot and the layout of counts and records are the
model's readings (log 20, 22, 31, 32). -/
def Obligations.StatusReportsChangeNothing : Prop :=
  ∀ (s : State) (f : RelayFrame) (k : SlotNo) (c : Request),
    (Passes s (statusRow 0 .ignored) f k c → Answers .statusSystem s f k .ok
      (bytesOf 6 s.part.system.station.toNat ++ [if s.uplink.link = .up then 0 else 1] ++ bytesOf 1 s.part.imageState.code
        ++ [if s.part.commissioning then 0 else 1] ++ s.uplink.counterData ++ bytesOfInt s.uplink.level
        ++ bytesOf 2 s.part.freeList.length ++ bytesOf 2 s.part.sharedInUse ++ bytesOf 2 s.part.tapUse
        ++ bytesOf 2 s.part.sharedRefsUsed ++ bytesOf 2 (s.part.slotsTaken + 1) ++ bytesOf 2 s.part.notices.length
        ++ [if s.part.noticesLost then 1 else 0]) s.part) ∧
    (Passes s (statusRow 1 .ignored) f k c → (48 ≤ c.byte 1 → Answers .statusPort s f k .badValue [] s.part) ∧
      ∀ p : PortNo, c.byte 1 = p.val → let x := s.part.port p
        (c.configure = false → c.mask.getLsbD p.val = false → Answers .statusPort s f k .noRight [] s.part) ∧
        ((c.configure = true ∨ c.mask.getLsbD p.val = true) → Answers .statusPort s f k .ok
          (bytesOf 1 x.portState.code ++ [x.epoch] ++ bytesOf 4 x.streamOffset.toNat ++ bytesOf 4 x.keyOffset.toNat
            ++ bytesOf 2 x.conditions.toNat ++ x.counters.bytes ++ bytesOf 2 x.portUse ++ bytesOf 1 x.engine.pause.code
            ++ optByte ((s.part.ownerOf p).map Fin.val) ++ bytesOf 2 (512 - x.engine.fifo.length)
            ++ bytesOf 2 x.blockQueue.length ++ bytesOf 2 x.chain.length ++ bytesOf 2 (s.part.chainCells p)
            ++ bytesOf 1 x.headHold.code ++ optByte (x.pattern.map fun r => r.1.val)
            ++ bytesOf 4 ((x.pattern.map fun r => r.2.toNat).getD 0)) s.part)) ∧
    (Passes s (statusRow 2 .required) f k c →
      let b := begun s (statusRow 2 .required) c
      let n := c.session
      let x := b.session n
      let y := s.part.port x.port
      Answers .statusSession s f k .ok
        (bytesOf 1 n.val ++ bytesOf 1 x.state.code ++ bytesOf 1 x.peer.val ++ bytesOf 2 x.tag.toNat ++ bytesOf 1 x.port.val
          ++ bytesOf 1 x.role.code ++ bytesOf 1 x.weight ++ bytesOf 2 x.queueLimit ++ bytesOf 2 x.idleTimeout
          ++ bytesOf 4 (x.idleTimer.getD 0xFFFFFFFF) ++ bytesOf 4 (x.drainTimer.getD 0xFFFFFFFF)
          ++ bytesOf 2 (s.part.queue (sessionQueue n)).length ++ bytesOf 4 x.nextOffset.toNat ++ bytesOf 4 x.gapBytes.toNat
          ++ bytesOf 4 x.keyBytes.toNat ++ bytesOf 2 x.keysDigest.toNat ++ bytesOf 2 x.outputDigest.toNat
          ++ [if x.attention then 1 else 0] ++ bytesOf 1 y.portState.code ++ [y.epoch]
          ++ optByte ((s.part.ownerOf x.port).map Fin.val)) b)

/-! ### The image and the restarts -/

/-- SAVE (R185): BUSY while SAVING; otherwise the state is SAVING, a copy of every table as it stands is kept to be written,
the slot stays reserved and the 10 s limit runs. At the end of the write the read-back decides: VALID and OK, or NO_IMAGE and
ABORTED; the limit gives NO_IMAGE and ABORTED. That the read-back is an operand, that the limit can come at any time, that it
and a read-back without an answer leave nothing readable, and that an end or limit with no SAVE running changes nothing are the
model's choices (log 3, 4, 26). -/
def Obligations.SaveWritesAllTables : Prop :=
  (∀ (s : State) (f : RelayFrame) (k : SlotNo) (c : Request), Passes s saveRow f k c →
    (s.part.imageState = .saving → Answers .save s f k .busy [] s.part) ∧
    (s.part.imageState ≠ .saving → Ends .save s fun u => Reserves s u f k ∧ ∃ t : Tables,
      t.system = s.part.system ∧ t.peers = s.part.peers ∧ (∀ p : PortNo, t.profiles[p] = (s.part.port p).profile) ∧
      t.triggers = s.part.triggers ∧ (∀ j : TapNo, t.taps[j] = (s.part.tap j).entry) ∧
      Leaves u { s.part with imageState := .saving, save := some { image := t.image, slot := k, timer := 10000 } })) ∧
  (∀ (s : State) (job : SaveJob) (h : ReqHeader) (a : FlashAnswer), s.part.save = some job →
    s.part.slot job.slot = .reserved h →
    let held := match a with | .stored => some job.image | .bytes l => some l | .silent => none
    let passes := (held.bind loadImage).isSome
    EndsPart (.saveWriteEnd a) s { s.part with
      save := none, flash := held, imageState := if passes then .valid else .noImage
      slots := s.part.slots.set job.slot (.formed h (if passes then .ok else .aborted) [])
      formed := s.part.formed ++ [job.slot] } ∧
    EndsPart .saveTimeout s { s.part with
      save := none, flash := none, imageState := .noImage
      slots := s.part.slots.set job.slot (.formed h .aborted []), formed := s.part.formed ++ [job.slot] }) ∧
  (∀ (s : State) (a : FlashAnswer), s.part.save = none →
    EndsPart (.saveWriteEnd a) s s.part ∧ EndsPart .saveTimeout s s.part)

/-- RESTART (R186, R166, R60): BUSY while SAVING; otherwise its OK is formed first, every delayed reply ABORTED behind it,
every session is FREE, every store, queue and counter has its starting value, the level is +burst; tables, settings, straps,
image and Reply Queue are kept; a port whose entry is enabled raises its epoch and starts, and the others are DISABLED; a
reply in transmission stays, a notice on the wire completes out of its queue, a cut one is gone, a data frame is discarded. That
the link stands, the data of the ABORTED replies, their order and what becomes of a cut frame are the model's (log 7, 21, 25), and so
is the memory that lists nothing, each byte of a cell then reading as 0 (log 6). -/
def Obligations.RestartDropsTrafficKeepsTables : Prop :=
  ∀ (s : State) (f : RelayFrame) (k : SlotNo) (c : Request), Passes s restartRow f k c →
    (s.part.imageState = .saving → Answers .restart s f k .busy [] s.part) ∧
    (s.part.imageState ≠ .saving → s.slotsHeld → s.tablesAllowed → Ends .restart s fun u =>
      u.pending = s.pending ∧ u.uplink = uplinkAtStart s.uplink.link s.part.system.burst ∧
      (u.part.slot k = .formed f.header .ok [] ∧ ∃ rest, u.part.formed = s.part.formed ++ k :: rest) ∧
      (∀ n j h, (s.part.session n).state ≠ .free → (s.part.session n).drainSlot = some j → s.part.slot j = .reserved h →
        u.part.slot j = .formed h .aborted (detachReply .restart 0 (s.part.session n)) ∧ j ∈ u.part.formed) ∧
      (∀ p g h, (s.part.port p).signal = some g → s.part.slot g.slot = .reserved h → u.part.slot g.slot =
        .formed h .aborted (bytesOf 1 g.kind.code ++ bytesOf 2 g.duration ++ bytesOf 2 g.elapsed) ∧ g.slot ∈ u.part.formed) ∧
      (∀ p l h, (s.part.port p).pendingLoad = some l → s.part.slot l.slot = .reserved h →
        u.part.slot l.slot = .formed h .aborted [] ∧ l.slot ∈ u.part.formed) ∧
      (u.part.peers = s.part.peers ∧ u.part.triggers = s.part.triggers ∧ u.part.system = s.part.system ∧
        u.part.commissioning = s.part.commissioning ∧ u.part.commissioningStrap = s.part.commissioningStrap ∧
        u.part.addressStraps = s.part.addressStraps ∧ u.part.imageState = s.part.imageState ∧ u.part.flash = s.part.flash) ∧
      (∀ t, u.part.tap t = { entry := (s.part.tap t).entry, counters := .zero }) ∧
      (∀ n, u.part.session n = .free) ∧ (∀ q, u.part.queue q = []) ∧
      (u.part.mem = [] ∧ u.part.freeList = List.range 4096 ∧ u.part.blocks = [] ∧ u.part.tapUse = 0 ∧ u.part.waitList = []) ∧
      (u.part.curQueue = 67 ∧ u.part.framesLeft = 0 ∧ u.part.lastServed = 47 ∧ u.part.lastControl = .notice) ∧
      (∀ m ∈ u.part.notices, ∃ p epoch set, m.body = .portCondition p epoch .localPresence set none) ∧
      (∀ b q n frame cut, u.part.transmission ≠ some ⟨.output b q n, frame, cut⟩ ∧ u.part.transmission ≠ some ⟨.tapcopy b q, frame, cut⟩) ∧
      (∀ j frame cut, s.part.transmission = some ⟨.reply j, frame, cut⟩ → u.part.transmission = some ⟨.reply j, frame, cut⟩) ∧
      (∀ m queued frame, s.part.transmission = some ⟨.notice m queued, frame, false⟩ →
        ∃ m', m'.dst = m.dst ∧ m'.body = m.body ∧ u.part.transmission = some ⟨.notice m' false, frame, false⟩) ∧
      (∀ m queued frame, s.part.transmission = some ⟨.notice m queued, frame, true⟩ → u.part.transmission = none) ∧
      (∀ p, let x := s.part.port p
        let z := { portAtStart x.profile with epoch := x.epoch, dsrDebounced := x.dsrDebounced, debounceTimer := x.debounceTimer, pins := x.pins }
        u.part.port p = if x.profile.enabled then started { z with epoch := x.epoch + 1 } else z))

/-- Power-on and pin reset (R60, R183, R184): the straps are latched and the image read; its tables are taken when it passes
its check, and the values without an image otherwise, the station address then coming from the address straps; the
commissioning state is computed; each profile's D8, achieved rate, rate error and character bits are computed from its rate and
format (R39 to R41); every port begins a stream of its own, ACTIVE with its engine and lines started when its entry is enabled and
DISABLED otherwise, everything else of it at its starting value (R20, R44, R82, R97, R169); every store, queue, counter, timer and the
records of Fan-out, Scheduler and arbiter have their starting values (R65, R81, R97, R155, R164). That straps and flash answer are
operands, what the flash holds then, that link and pins stand, and that a raw DSR already asserted starts its debounce at once, are
the model's (log 7, 26, 35), and so is the memory that lists nothing, each byte of a cell then reading as 0 (log 6); the flag of a walk
due is its own (log 29). -/
def Obligations.StartUpTakesImageOrDefaults : Prop :=
  ∀ (s : State) (strap : Bool) (address : BitVec 4) (a : FlashAnswer) (i : Instr),
    (i = .powerOn strap address a ∨ i = .pinReset strap address a) →
    let read := match a with | .stored => s.part.flash | .bytes l => some l | .silent => none
    let image := if s.part.imageState = .saving then none else read.bind loadImage
    Ends i s fun u =>
      (u.pending = s.pending ∧ u.uplink = uplinkAtStart s.uplink.link u.part.system.burst) ∧
      (u.part.commissioningStrap = strap ∧ u.part.addressStraps = address ∧
        u.part.commissioning = (strap && !allPeers.any fun j => (u.part.peer j).valid && (u.part.peer j).configure)) ∧
      (∀ t, image = some t → u.part.imageState = .valid ∧ u.part.system = t.system ∧ u.part.peers = t.peers ∧
        u.part.triggers = t.triggers ∧ (∀ p : PortNo, (u.part.port p).profile = t.profiles[p]) ∧
        (∀ j : TapNo, u.part.tap j = { entry := t.taps[j], counters := .zero })) ∧
      (image = none → u.part.imageState = .noImage ∧
        u.part.system = { station := 0x024E4B000000 + address.zeroExtend 48, rate := 1250, burst := 15180, supervisor := none } ∧
        (∀ j, u.part.peer j = .empty) ∧ (∀ j, u.part.trigger j = .empty) ∧ (∀ j, u.part.tap j = .empty) ∧
        (∀ p, (u.part.port p).profile = profileAtStart)) ∧
      (∀ p, let e := (u.part.port p).profile
        e.d8 = max 8 (min ((29491200 + e.rate) / (2 * e.rate)) 524287) ∧ e.achieved = 14745600 / e.d8 ∧
        e.rateError = Int.tdiv ((14745600 - (e.rate : Int) * (e.d8 : Int)) * 1000000) ((e.rate : Int) * (e.d8 : Int)) ∧
        e.charBits = 1 + e.dataBits + (if e.parity = .even ∨ e.parity = .odd then 1 else 0) + e.stopBits) ∧
      ((∀ j, u.part.slot j = .free) ∧ u.part.formed = [] ∧ (∀ n, u.part.session n = .free) ∧ (∀ q, u.part.queue q = []) ∧
        u.part.notices = [] ∧ u.part.noticesLost = false ∧ u.part.transmission = none ∧ u.part.mem = [] ∧
        u.part.freeList = List.range 4096 ∧ u.part.blocks = [] ∧ u.part.tapUse = 0 ∧ u.part.waitList = [] ∧
        u.part.walkDue = false ∧ u.part.lastServed = 47 ∧ u.part.curQueue = 67 ∧ u.part.framesLeft = 0 ∧
        u.part.lastControl = .notice ∧ u.part.chosen = none ∧ u.part.save = none) ∧
      u.part.flash = (if s.part.imageState = .saving then none else match a with | .bytes l => some l | .stored => s.part.flash | .silent => s.part.flash) ∧
      (∀ p, let e := (u.part.port p).profile
        let pins := (s.part.port p).pins
        let stopped := { portAtStart e with pins, debounceTimer := if pins.dsr then some 20 else none }
        u.part.port p = if e.enabled then started stopped else stopped)

/-! ### Events on the console lines -/

/-- What the transmitter loads into an empty shift register (R23 to R25): nothing while the engine is stopped, the register
holds a character or a BREAK is in progress; else the pending flow character, under flow SOFT or if it is XON; else the head
of the FIFO unless flow SOFT with the console stopped, or flow HARD with CTS deasserted, holds it back. A character completes
on TXD (R26, R29, R172): with the register empty nothing happens; otherwise a key byte whose session exists folds into its
keys digest, as transmitted, the register empties, a BREAK that waited goes to SPACE and the next character is loaded. A load
that waited for an idle transmitter, or for this character, then comes to its moment (R50, R51, R57), for this character whether or not a
signal runs on; where it waits for an idle transmitter, with more to send or a signal in progress it waits on. That a completion with nothing in the register changes nothing is the model's choice (log 3), and
the order inside an apply, and what a signal ended by presence leaves behind, its readings and choices (log 17, 18, 21, 36, 55). -/
def Obligations.CharactersLoadLeaveAndFold : Prop :=
  (∀ x : Port,
     let stopped := (x.profile.flow = .soft ∧ x.engine.consoleStopped = true) ∨ (x.profile.flow = .hard ∧ x.pins.cts = false)
     let flow := ∃ ch, x.engine.pendingFlow = some ch ∧ (x.profile.flow = .soft ∨ ch = .xon)
     ((x.portState = .disabled ∨ x.engine.shift ≠ .empty ∨ x.signalIs .breakSignal = true) → x.load = x) ∧
     (x.portState ≠ .disabled → x.engine.shift = .empty → x.signalIs .breakSignal = false →
       (∀ ch, x.engine.pendingFlow = some ch → (x.profile.flow = .soft ∨ ch = .xon) →
         x.load = { x with engine := { x.engine with shift := .flow ch, pendingFlow := none, lastFlow := ch } }) ∧
       (¬flow → ∀ v tag rest, x.engine.fifo = (v, tag) :: rest →
         (stopped → x.load = x) ∧
         (¬stopped → x.load = { x with engine := { x.engine with shift := .key v tag, fifo := rest } })) ∧
       (¬flow → x.engine.fifo = [] → x.load = x))) ∧
  (∀ (s : State) (p : PortNo),
     let x := s.part.port p
     let sent := { x with
       engine := { x.engine with shift := .empty }
       signal := x.signal.map fun g => if g.phase = .waiting then { g with phase := .space } else g }
     let fold : Part := match x.engine.shift with
       | .key v (some n) => if (s.part.session n).state = .free then s.part else s.part.setSession n
           { s.part.session n with
             keysDigest := foldByte (s.part.session n).keysDigest (if x.profile.dataBits = 7 then v &&& 0x7F else v) }
       | .key _ none => s.part
       | .flow _ => s.part
       | .empty => s.part
     (x.engine.shift = .empty → EndsPart (.txCharacterComplete p) s s.part) ∧
     (x.engine.shift ≠ .empty → x.pendingLoad = none → EndsPart (.txCharacterComplete p) s (fold.setPort p sent.load)) ∧
     (∀ l, x.engine.shift ≠ .empty → x.pendingLoad = some l → l.flushed = none →
       (x.engine.fifo ≠ [] ∨ x.engine.pendingFlow ≠ none ∨ x.signal ≠ none) →
       EndsPart (.txCharacterComplete p) s (fold.setPort p sent.load)) ∧
     (∀ l, x.engine.shift ≠ .empty → x.pendingLoad = some l → s.part.waitList = [] →
       ((x.signal = none ∧ x.portState = .reconfig ∧ x.engine.fifo = [] ∧ x.engine.pendingFlow = none) ∨
        (l.flushed ≠ none ∧ (x.signal = none ∨ l.entry.presenceSource ≠ .dsr ∨ x.dsrDebounced = false ∨ s.slotsHeld))) →
       Ends (.txCharacterComplete p) s fun u =>
         LoadFinished p l (fold.setPort p sent) u.part ∧ u.pending = s.pending ∧ u.uplink = s.uplink))

/-- A character completes on RXD (R30 to R34, R87, R89), on a port whose engine runs and whose receiver does not wait for
mark: a break sets RX_BREAK and counts, closes the open block with close reason BREAK and waits for mark, delivering nothing;
an error sets FRAMING, PARITY or both, and under DROP is counted and gone, under KEEP counted and delivered as a byte is; under flow SOFT a good XON or XOFF sets the console
flow state; a byte that finds the holding slot full is lost with OVERRUN. Any other character starts the idle-gap timer again,
and the receiver hunts, or waits for mark after a framing error. A stopped engine takes no character. The level of RXD after a
character, what a waiting receiver takes and the return to hunting after a parity error are the model's readings (log 9, 10,
38). -/
def Obligations.ReceivedCharactersAreClassified : Prop :=
  ∀ (s : State) (p : PortNo) (r : RxSample),
    let x := s.part.port p
    let byte := if x.profile.dataBits = 7 then r.data &&& 0x7F else r.data
    let ones := (List.range 8).foldl (fun n j => n + (byte.getLsbD j).toNat) 0 + r.parityBit.toNat
    let framing := r.stopMark = false
    let parity := (x.profile.parity = .even ∧ ones % 2 = 1) ∨ (x.profile.parity = .odd ∧ ones % 2 = 0)
    let isBreak := framing ∧ byte = 0 ∧ (x.profile.parity = .noParity ∨ r.parityBit = false) ∧ r.stillSpace = true
    let takes := x.portState ≠ .disabled ∧ (x.engine.receiver = .waitMark → x.pins.rxd = true)
    let conditions := fun bad : Bool => (if bad then Condition.overrun.bit else 0)
      ||| (if framing then Condition.framing.bit else 0) ||| (if parity then Condition.parity.bit else 0)
    let y := { x with
      pins := { x.pins with rxd := r.stopMark || !r.stillSpace }
      engine := { x.engine with receiver := if framing then .waitMark else .hunting }
      gapTimer := some (x.profile.idleGap * x.profile.charBits * (2 * x.profile.d8)) }
    let only := fun (u : State) (z : Port) => u.pending = s.pending ∧ u.uplink = s.uplink ∧
      u.part = { s.part.setPort p z with notices := u.part.notices, noticesLost := u.part.noticesLost }
    (¬takes → EndsPart (.rxCharacterComplete p r) s s.part) ∧
    (takes → isBreak → Ends (.rxCharacterComplete p r) s fun u =>
      u.part.port p = { x with
        pins := { x.pins with rxd := false }
        engine := { x.engine with receiver := .waitMark }
        counters := { x.counters with breaks := x.counters.breaks + 1 }
        conditions := x.conditions ||| Condition.rxBreak.bit
        openBlock := none, gapTimer := none, blockQueue := x.blockQueue ++ x.openBlock.toList } ∧
      (∀ id, x.openBlock = some id → u.part.block id = (s.part.block id).map fun b => { b with closeReason := some .breakFound }) ∧
      (∀ q, q ≠ p → u.part.port q = s.part.port q) ∧ u.part.sessions = s.part.sessions ∧ u.part.queues = s.part.queues ∧
      u.part.mem = s.part.mem ∧ u.pending = s.pending ∧ u.uplink = s.uplink) ∧
    (takes → ¬isBreak → framing ∨ parity → x.profile.errorPolicy = .drop → Ends (.rxCharacterComplete p r) s fun u =>
      only u { y with
        conditions := x.conditions ||| conditions false
        counters := { x.counters with errorsDropped := x.counters.errorsDropped + 1 } }) ∧
    (takes → ¬isBreak → framing ∨ parity → x.profile.errorPolicy = .keep → x.engine.slot = none →
      Ends (.rxCharacterComplete p r) s fun u =>
        let z := u.part.port p
        z.counters.errorsKept = x.counters.errorsKept + 1 ∧ z.counters.errorsDropped = x.counters.errorsDropped ∧
        z.engine.receiver = y.engine.receiver ∧ z.pins = y.pins ∧
        (∀ e : Condition, hasCondition (x.conditions ||| conditions false) e = true → hasCondition z.conditions e = true) ∧
        (∀ id b, x.openBlock = some id → s.part.block id = some b → b.length % 64 ≠ 0 → x.profile.triggerSet = 0 →
          s.memoryCanonical →
          z.conditions = x.conditions ||| conditions false ∧ z.streamOffset = x.streamOffset + 1 ∧ z.engine.slot = none ∧
          Memory.read u.part.mem (Memory.addressOf b.cells b.length) = byte ∧
          (∀ a, a ≠ Memory.addressOf b.cells b.length → Memory.read u.part.mem a = Memory.read s.part.mem a) ∧
          (u.part.block id).map Block.length = some (b.length + 1))) ∧
    (takes → ¬isBreak → framing ∨ parity → x.profile.errorPolicy = .keep → x.engine.slot ≠ none →
      Ends (.rxCharacterComplete p r) s fun u => only u { y with
        conditions := x.conditions ||| conditions true
        counters := { x.counters with overrun := x.counters.overrun + 1 } }) ∧
    (takes → ¬framing → ¬parity → x.profile.flow = .soft → byte = 0x11 ∨ byte = 0x13 →
      EndsPart (.rxCharacterComplete p r) s (s.part.setPort p
        (Port.load { y with engine := { y.engine with consoleStopped := byte == 0x13 } }))) ∧
    (takes → ¬framing → ¬parity → ¬(x.profile.flow = .soft ∧ (byte = 0x11 ∨ byte = 0x13)) → x.engine.slot ≠ none →
      Ends (.rxCharacterComplete p r) s fun u => only u { y with
        conditions := x.conditions ||| conditions true
        counters := { x.counters with overrun := x.counters.overrun + 1 } })

/-- A good byte that finds the holding slot empty (R34 to R37, R67, R68, R70, R83, R84), on a port with no triggers: with room in the
open block's current cell it is written there and takes the next stream offset, and the pause stands. With no open block, or one whose last cell is
full, it asks for a cell: admitted, from the port's reserve or within its share from the shared pool, the head of the free list
begins a new block or is added to the open one, the account rises by one, and the pause is evaluated against it, with the flow
character or RTS that follows; refused, with no history to yield, it waits in the
slot and the port joins the wait list. No other byte of memory changes. That a block is named by its first cell and that an
admission needs a free cell, which R66 gives in every run, are the model's choices (log 12, 37). -/
def Obligations.GoodBytesAreStoredOrWait : Prop :=
  ∀ (s : State) (p : PortNo) (r : RxSample),
    let x := s.part.port p
    let byte := if x.profile.dataBits = 7 then r.data &&& 0x7F else r.data
    let ones := (List.range 8).foldl (fun n j => n + (byte.getLsbD j).toNat) 0 + r.parityBit.toNat
    let parity := (x.profile.parity = .even ∧ ones % 2 = 1) ∨ (x.profile.parity = .odd ∧ ones % 2 = 0)
    let reserves := (s.part.ports.toList.map fun y => y.profile.reserve).sum
    let inUse := (s.part.ports.toList.map fun y => y.portUse - y.profile.reserve).sum
    let admitted := s.part.freeList ≠ [] ∧ (x.portUse < x.profile.reserve ∨
      (x.portUse - x.profile.reserve < x.profile.shareLimit ∧ inUse < 4032 - reserves))
    let stored := { x with
      pins := { x.pins with rxd := true }
      engine := { x.engine with receiver := .hunting }
      gapTimer := some (x.profile.idleGap * x.profile.charBits * (2 * x.profile.d8))
      portUse := x.portUse + 1, streamOffset := x.streamOffset + 1 }
    x.portState ≠ .disabled → (x.engine.receiver = .waitMark → x.pins.rxd = true) → r.stopMark = true →
    ¬parity → ¬(x.profile.flow = .soft ∧ (byte = 0x11 ∨ byte = 0x13)) → x.engine.slot = none →
    x.profile.triggerSet = 0 → s.part.walkDue = false →
    (∀ id b, x.openBlock = some id → s.part.block id = some b → b.length % 64 ≠ 0 → s.memoryCanonical →
      Ends (.rxCharacterComplete p r) s fun u =>
        Memory.read u.part.mem (Memory.addressOf b.cells b.length) = byte ∧
        (∀ a, a ≠ Memory.addressOf b.cells b.length → Memory.read u.part.mem a = Memory.read s.part.mem a) ∧
        (u.part.port p).streamOffset = x.streamOffset + 1 ∧ (u.part.port p).engine = { x.engine with receiver := .hunting } ∧
        (u.part.port p).portUse = x.portUse ∧
        u.part.block id = some { b with
          length := b.length + 1
          closeReason := if b.length + 1 = 512 then some .full
                         else if b.length + 1 = x.profile.blockLimit then some .limit else b.closeReason } ∧
        ((b.length + 1 = 512 ∨ b.length + 1 = x.profile.blockLimit) →
          (u.part.port p).openBlock = none ∧ (u.part.port p).blockQueue = x.blockQueue ++ [id]) ∧
        (b.length + 1 ≠ 512 → b.length + 1 ≠ x.profile.blockLimit →
          (u.part.port p).openBlock = some id ∧ (u.part.port p).blockQueue = x.blockQueue)) ∧
    (∀ c rest, x.openBlock = none → admitted → s.part.freeList = c :: rest → x.profile.blockLimit ≠ 1 →
      (∀ b ∈ s.part.blocks, b.id ≠ c) → s.memoryCanonical → Ends (.rxCharacterComplete p r) s fun u =>
        u.part.block c = some
          { id := c, kind := .output, port := p, epoch := x.epoch, start := x.streamOffset, length := 1, cells := [c]
            marks := 0, closeReason := none, sender := none, refCount := 1 } ∧
        Memory.read u.part.mem (64 * c) = byte ∧
        (∀ a, a ≠ 64 * c → Memory.read u.part.mem a = Memory.read s.part.mem a) ∧
        u.part.freeList = rest ∧ u.part.waitList = s.part.waitList ∧
        u.part.port p = paused { stored with openBlock := some c }) ∧
    (∀ id b c rest, x.openBlock = some id → s.part.block id = some b → b.length ≠ 0 → b.length = 64 * b.cells.length →
      admitted → s.part.freeList = c :: rest → x.profile.blockLimit ≠ b.length + 1 → s.memoryCanonical →
      Ends (.rxCharacterComplete p r) s fun u =>
        u.part.block id = some { b with length := b.length + 1, cells := b.cells ++ [c] } ∧
        Memory.read u.part.mem (64 * c) = byte ∧
        (∀ a, a ≠ 64 * c → Memory.read u.part.mem a = Memory.read s.part.mem a) ∧
        u.part.freeList = rest ∧ u.part.waitList = s.part.waitList ∧ u.part.port p = paused stored) ∧
    ((∀ id b, x.openBlock = some id → s.part.block id = some b → b.length % 64 = 0) → ¬admitted → x.chain = [] →
      Ends (.rxCharacterComplete p r) s fun u =>
        (u.part.port p).engine = { x.engine with receiver := .hunting, slot := some byte } ∧
        u.part.waitList = (if p ∈ s.part.waitList then s.part.waitList else s.part.waitList ++ [p]) ∧
        (u.part.port p).counters.admissionWaits = x.counters.admissionWaits + 1 ∧ (u.part.port p).portUse = x.portUse ∧
        (u.part.port p).streamOffset = x.streamOffset ∧ u.part.mem = s.part.mem ∧ u.part.blocks = s.part.blocks ∧
        u.part.freeList = s.part.freeList)

/-- The blocks that are freed when the blocks of `l` give up one hold each (R63, R64, R69). -/
def Sys2Proof.Claims.freedBy (s : Part) (l : List Nat) : List Block :=
  l.filterMap fun id => (s.block id).filter fun b => decide (b.refCount ≤ 1)

/-- Port p's account once the blocks of `l` have given up one hold each (R64, R65). -/
def Sys2Proof.Claims.useAfter (s : Part) (p : PortNo) (l : List Nat) : Nat :=
  (s.port p).portUse - ((freedBy s l).map fun b => b.cells.length).sum

/-- Once the blocks of port p's history in `l` have yielded, steps 1 and 2 of R68 admit a cell to the port, and one is free. -/
def Sys2Proof.Claims.admitsAfter (s : Part) (p : PortNo) (l : List Nat) : Prop :=
  let x := s.port p
  let used := useAfter s p l
  let reserves := (allPorts.map fun q => (s.port q).profile.reserve).sum
  let inUse := (allPorts.map fun q => (if q = p then used else (s.port q).portUse) - (s.port q).profile.reserve).sum
  s.freeList ++ (freedBy s l).flatMap Block.cells ≠ [] ∧
    (used < x.profile.reserve ∨ (used - x.profile.reserve < x.profile.shareLimit ∧ inUse < 4032 - reserves))

/-- A request that the accounts refuse takes history back (R69, R64): the blocks of the port's own Output Chain give up their
chain holds, oldest first, one by one; HISTORY_YIELD is set and each is counted; one that was held by nothing else is freed, its
cells go to the tail of the free list and the account falls, and one still held yields no cell, so that the next yields. The
yielding stops at the first block after which the accounts admit the request: the rest of the chain stays, and the head of the
free list begins the byte's new block. Where the whole chain does not suffice it is empty, and the byte waits (R70). The pause is
evaluated once for each block freed and once for the cell taken (R35, R64); nothing else of the port and no other port is
touched. That a block is named by its first cell and that an admission needs a free cell, which R66 gives in every
run, are the model's choices (log 12, 37). -/
def Obligations.HistoryYieldsACellForTheByte : Prop :=
  ∀ (s : State) (p : PortNo) (r : RxSample),
    let x := s.part.port p
    let byte := if x.profile.dataBits = 7 then r.data &&& 0x7F else r.data
    let ones := (List.range 8).foldl (fun n j => n + (byte.getLsbD j).toNat) 0 + r.parityBit.toNat
    let parity := (x.profile.parity = .even ∧ ones % 2 = 1) ∨ (x.profile.parity = .odd ∧ ones % 2 = 0)
    let lowered := fun (l rest : List Nat) =>
      (freedBy s.part l).foldl (fun y b => paused { y with portUse := y.portUse - b.cells.length }) { x with
        pins := { x.pins with rxd := true }
        engine := { x.engine with receiver := .hunting }
        gapTimer := some (x.profile.idleGap * x.profile.charBits * (2 * x.profile.d8))
        chain := rest, counters := { x.counters with historyYields := x.counters.historyYields + BitVec.ofNat 32 l.length }
        conditions := if l = [] then x.conditions else x.conditions ||| Condition.historyYield.bit }
    let given := fun (u : State) (l : List Nat) =>
      (u.part.port p).counters.historyYields = x.counters.historyYields + BitVec.ofNat 32 l.length ∧
      (l ≠ [] → hasCondition (u.part.port p).conditions .historyYield = true) ∧
      (∀ id b, id ∈ l → s.part.block id = some b → 2 ≤ b.refCount →
        u.part.block id = some { b with refCount := b.refCount - 1 }) ∧
      (∀ q, q ≠ p → u.part.port q = s.part.port q) ∧ u.part.queues = s.part.queues
    x.portState ≠ .disabled → (x.engine.receiver = .waitMark → x.pins.rxd = true) → r.stopMark = true →
    ¬parity → ¬(x.profile.flow = .soft ∧ (byte = 0x11 ∨ byte = 0x13)) → x.engine.slot = none →
    x.profile.triggerSet = 0 → x.profile.blockLimit ≠ 1 → s.part.waitList = [] → s.memoryCanonical → s.cellsOnce →
    x.openBlock = none → x.chain.Nodup →
    (∀ id ∈ x.chain, ∃ b, s.part.block id = some b ∧ b.kind = .output ∧ b.port = p) →
    (∀ olds id rest c cells, x.chain = olds ++ id :: rest → ¬admitsAfter s.part p olds →
      admitsAfter s.part p (olds ++ [id]) →
      s.part.freeList ++ (freedBy s.part (olds ++ [id])).flatMap Block.cells = c :: cells →
      Ends (.rxCharacterComplete p r) s fun u =>
        let y := u.part.port p
        given u (olds ++ [id]) ∧ y.chain = rest ∧ y.portUse = useAfter s.part p (olds ++ [id]) + 1 ∧
        (let z := lowered (olds ++ [id]) rest
         y = paused { z with portUse := z.portUse + 1, openBlock := some c, streamOffset := x.streamOffset + 1 }) ∧
        u.part.freeList = cells ∧ u.part.waitList = [] ∧ y.openBlock = some c ∧ y.engine.slot = none ∧
        y.streamOffset = x.streamOffset + 1 ∧
        (∀ b ∈ freedBy s.part (olds ++ [id]), b.id ≠ c → u.part.block b.id = none) ∧
        u.part.block c = some
          { id := c, kind := .output, port := p, epoch := x.epoch, start := x.streamOffset, length := 1, cells := [c]
            marks := 0, closeReason := none, sender := none, refCount := 1 } ∧
        Memory.read u.part.mem (64 * c) = byte ∧ ∀ a, a ≠ 64 * c → Memory.read u.part.mem a = Memory.read s.part.mem a) ∧
    (¬admitsAfter s.part p x.chain → Ends (.rxCharacterComplete p r) s fun u =>
      let y := u.part.port p
      given u x.chain ∧ y.chain = [] ∧ y.portUse = useAfter s.part p x.chain ∧
      (let z := lowered x.chain []
       y = { z with engine := { z.engine with slot := some byte }
                    counters := { z.counters with admissionWaits := x.counters.admissionWaits + 1 } }) ∧
      u.part.freeList = s.part.freeList ++ (freedBy s.part x.chain).flatMap Block.cells ∧
      (∀ b ∈ freedBy s.part x.chain, u.part.block b.id = none) ∧
      y.engine.slot = some byte ∧ u.part.waitList = [p] ∧ y.counters.admissionWaits = x.counters.admissionWaits + 1 ∧
      y.openBlock = none ∧ y.streamOffset = x.streamOffset ∧ u.part.mem = s.part.mem)

/-- A byte that enters an open block advances each trigger its port selects (R93 to R96); here one trigger alone is selected.
The position goes on by one where the byte is the pattern's next, and otherwise to 1 or 0 as the byte is the pattern's first
or not. At the pattern's length the trigger matches: its position is 0 again, MARK marks the open block with its group, NOTICE
records the trigger and the byte's offset, counts the match and sets PATTERN, CLOSE closes the block with TRIGGER before FULL
and LIMIT. That the pattern record is written before PATTERN is set is the model's reading (log 16). -/
def Obligations.TriggersActOnTheirMatch : Prop :=
  ∀ (s : State) (p : PortNo) (r : RxSample) (id : Nat) (b : Block) (t : TriggerNo),
    let x := s.part.port p
    let tr := s.part.trigger t
    let byte := if x.profile.dataBits = 7 then r.data &&& 0x7F else r.data
    let at_ := x.matchPos[t]
    let next := if byte = tr.pattern.toList.getD at_ 0 then at_ + 1 else if byte = tr.pattern.toList.getD 0 0 then 1 else 0
    x.portState ≠ .disabled → (x.engine.receiver = .waitMark → x.pins.rxd = true) → r.stopMark = true →
    x.profile.parity = .noParity → ¬(x.profile.flow = .soft ∧ (byte = 0x11 ∨ byte = 0x13)) → x.engine.slot = none →
    x.openBlock = some id → s.part.block id = some b → b.length % 64 ≠ 0 → tr.valid = true →
    (∀ t' : TriggerNo, (s.part.trigger t').valid = true → (x.profile.triggerSet.getLsbD t'.val = true ↔ t' = t)) →
    (next ≠ tr.length → Ends (.rxCharacterComplete p r) s fun u =>
      let y := u.part.port p
      y.matchPos = x.matchPos.set t next ∧ y.pattern = x.pattern ∧ y.conditions = x.conditions ∧ y.counters = x.counters ∧
      y.streamOffset = x.streamOffset + 1 ∧ (u.part.block id).map Block.marks = some b.marks) ∧
    (next = tr.length → Ends (.rxCharacterComplete p r) s fun u =>
      let y := u.part.port p
      y.matchPos = x.matchPos.set t 0 ∧ y.streamOffset = x.streamOffset + 1 ∧
      (u.part.block id).map Block.marks =
        some (if tr.actions.getLsbD 1 then b.marks ||| BitVec.twoPow 8 tr.markGroup else b.marks) ∧
      (tr.actions.getLsbD 2 = true → y.pattern = some (t, x.streamOffset) ∧
        y.counters = { x.counters with patternMatches := x.counters.patternMatches + 1 } ∧
        y.conditions = x.conditions ||| Condition.pattern.bit) ∧
      (tr.actions.getLsbD 2 = false → y.pattern = x.pattern ∧ y.counters = x.counters ∧ y.conditions = x.conditions) ∧
      (tr.actions.getLsbD 0 = true → y.openBlock = none ∧ y.blockQueue = x.blockQueue ++ [id] ∧
        (u.part.block id).map Block.closeReason = some (some .trigger)))

/-- RXD returns to mark: a running receiver that waited for it hunts again; a start bit taken as noise gives no character, no
error and no condition, and the receiver hunts (R30). CTS is taken as it stands, and under flow HARD its assertion lets the
FIFO go on (R24, R25). A raw DSR that differs from the debounced one starts a 20 ms timer, and one that returns to it stops
the timer (R56). A token rise adds one byte to the level unless that would take it above +burst (R162). When the link goes
down a frame on the wire is cut off, counted and kept whole; when it comes up the cut frame is resent as it was formed,
without a charge; nothing else changes (R3, R165). The level of RXD at the pin and what a waiting receiver takes are the
model's readings (log 9, 10). -/
def Obligations.PinsTokensAndLinkAreFollowed : Prop :=
  (∀ (s : State) (p : PortNo) (level : Bool),
     let x := s.part.port p
     EndsPart (.rxdReturnToMark p) s (s.part.setPort p { x with
       pins := { x.pins with rxd := true }
       engine := { x.engine with
         receiver := if x.portState ≠ .disabled ∧ x.engine.receiver = .waitMark then .hunting else x.engine.receiver } }) ∧
     (x.portState ≠ .disabled → (x.engine.receiver = .waitMark → x.pins.rxd = true) →
       EndsPart (.startBitNoise p) s (s.part.setPort p { x with
         pins := { x.pins with rxd := true }, engine := { x.engine with receiver := .hunting } })) ∧
     ((x.portState = .disabled ∨ (x.engine.receiver = .waitMark ∧ x.pins.rxd = false)) →
       EndsPart (.startBitNoise p) s s.part) ∧
     EndsPart (.ctsChange p level) s (s.part.setPort p (Port.load { x with pins := { x.pins with cts := level } })) ∧
     EndsPart (.dsrChange p level) s (s.part.setPort p { x with
       pins := { x.pins with dsr := level }
       debounceTimer := if level = x.dsrDebounced then none else some (x.debounceTimer.getD 20) })) ∧
  (∀ (s : State),
     exec .shaperTokenRise s = .next (settle { s with uplink := { s.uplink with
       level := if s.uplink.level < s.part.system.burst then s.uplink.level + 1 else s.uplink.level } }) ∧
     (∀ what frame, s.part.transmission = some ⟨what, frame, false⟩ → exec .linkDown s = .next (settle { s with
       uplink := { s.uplink with link := .down, framesCut := s.uplink.framesCut + 1 }
       part := { s.part with transmission := some ⟨what, frame, true⟩ } })) ∧
     ((∀ what frame, s.part.transmission ≠ some ⟨what, frame, false⟩) → exec .linkDown s = .next (settle { s with
       uplink := { s.uplink with link := .down } })) ∧
     (∀ what frame cut, s.part.transmission = some ⟨what, frame, cut⟩ → exec .linkUp s = .next (settle { s with
       uplink := { s.uplink with link := .up }, part := { s.part with transmission := some ⟨what, frame, false⟩ } })) ∧
     (s.part.transmission = none → exec .linkUp s = .next (settle { s with uplink := { s.uplink with link := .up } })))

/-- The port as presence that asserts leaves it in ACTIVE or RECONFIG, before its transmitter loads what it may (R57, R130, R174): it is in
LOCAL_HOLD with LOCAL set, its FIFO is flushed, the HELD head of an owned port is RETRY; a signal ends early, AUX then at DEASSERT and
the other lines as R169 gives them; a load in RECONFIG is marked with the count flushed and its limit stops. Nothing else changes.
What a line moved to MANUAL during its pulse takes at the early end is the model's (log 36, 55). -/
def Sys2Proof.Claims.takenOver (owned : Bool) (x : Port) : Port :=
  { x with
    portState := .localHold
    engine := { x.engine with fifo := [] }
    conditions := x.conditions ||| Condition.localPresence.bit
    headHold := if owned = true ∧ x.headHold = .held then .retry else x.headHold
    signal := none
    lines := match x.signal with
      | none => x.lines
      | some g => linesOf { x with
          signal := none, lines := if g.kind = .auxPulse then { x.lines with aux := .deassert } else x.lines }
    reconfigTimer := if x.portState = .reconfig then none else x.reconfigTimer
    pendingLoad :=
      if x.portState = .reconfig then x.pendingLoad.map fun l => { l with flushed := some (l.flushed.getD x.engine.fifo.length) }
      else x.pendingLoad }

/-- What presence that asserts brings on a port in ACTIVE or RECONFIG (R57), from part `s` to part `t`: the port stands exactly as
`takenOver` has it, its owner is demoted with a LOCAL notice, offered before the LOCAL condition's (log 58), its signal's reply is formed ABORTED, and nothing else changes. -/
structure Sys2Proof.Claims.PresenceTaken (p : PortNo) (s t : Part) : Prop where
  port : t.port p = takenOver (s.ownerOf p).isSome (s.port p)
  owner : t.ownerOf p = none
  sessions : ∀ n, t.session n = if s.owns n p then { s.session n with role := .observer } else s.session n
  notice : ∀ n, s.owns n p = true → s.notices.length < 32 → ∃ m ∈ t.notices, m.dst = s.addressOf n ∧
    m.body = .sessionEvent n (s.session n).tag p .localPresence none
  aborted : ∀ g h, (s.port p).signal = some g → s.slot g.slot = .reserved h →
    t.slots = s.slots.set g.slot (.formed h .aborted (bytesOf 1 g.kind.code ++ bytesOf 2 g.duration ++ bytesOf 2 g.elapsed)) ∧
    t.formed = s.formed ++ [g.slot]
  noSignal : (s.port p).signal = none → t.slots = s.slots ∧ t.formed = s.formed
  others : ∀ q, q ≠ p → t.port q = s.port q
  rest : t = { s with
    ports := t.ports, sessions := t.sessions, slots := t.slots, formed := t.formed, notices := t.notices, noticesLost := t.noticesLost }

/-- The PORT_CONDITION notices of port p that a command added stand behind the notices queued before, in the order of the table
of R178; where not all find a place, one is queued only if those before it in the table are (R179, R181). -/
def Sys2Proof.Claims.NoticedInOrder (p : PortNo) (s t : Part) : Prop :=
  ∃ more, t.notices = s.notices ++ more ∧
    (more.filterMap fun m => (m.conditionOf p).map Condition.code).Pairwise (· < ·) ∧
    ∀ c d : Condition, c.code < d.code → (∃ m ∈ more, m.conditionOf p = some d) → s.supervisor ≠ none →
      hasCondition (s.port p).conditions c = false → hasCondition (t.port p).conditions c = true →
      hasCondition (s.port p).profile.noticeMask c = true → hasCondition (t.port p).profile.noticeMask c = true →
      ∃ m ∈ more, m.conditionOf p = some c

/-- The debounce expires (R56 to R58): with no timer running nothing happens; the debounced DSR takes the raw level; where
presence does not newly assert, nothing else changes, and a port in LOCAL_HOLD stays there. Presence asserted on an ACTIVE
port demotes the owner with a LOCAL notice, flushes the FIFO, aborts a signal, sets LOCAL and makes the port LOCAL_HOLD; on a
DISABLED port it changes nothing more, in LOCAL_HOLD it sets LOCAL; in RECONFIG with a character still in the register the
load waits for it with the count flushed, and with the register empty it comes to its moment at once, in LOCAL_HOLD, behind the
ABORTED reply of a signal; the port's conditions are then notified in the order of the table (R179). That an expiry with no timer
running changes nothing, and that one is taken whatever time is left, are the model's choices (log 3, 4); the data of the ABORTED
reply, the order inside an apply, that presence and the apply it brings are one event whose notices stand in the table's order, and
the MANUAL lines at an early end (R169, R174), its readings and choices (log 15, 17, 18, 21, 36, 39, 55); that the owner's
notice takes the last place there is, ahead of the LOCAL condition's, is its choice (log 58). -/
def Obligations.PresenceTakesThePort : Prop :=
  ∀ (s : State) (p : PortNo),
    let x := s.part.port p
    let y := { x with debounceTimer := none, dsrDebounced := x.pins.dsr }
    let newly := x.profile.presenceSource = .dsr ∧ x.dsrDebounced = false ∧ x.pins.dsr = true
    (x.debounceTimer = none → EndsPart (.dsrDebounceExpiry p) s s.part) ∧
    (x.debounceTimer ≠ none →
      (¬newly ∨ x.portState = .disabled → EndsPart (.dsrDebounceExpiry p) s (s.part.setPort p y)) ∧
      (newly → x.portState = .localHold → EndsPart (.dsrDebounceExpiry p) s
        (setCondition p .localPresence (s.part.setPort p y))) ∧
      (newly → s.portsOwned → x.portState = .active ∨ (x.portState = .reconfig ∧ x.engine.shift ≠ .empty) →
        Ends (.dsrDebounceExpiry p) s fun u => ∃ t,
          PresenceTaken p (s.part.setPort p y) t ∧ u.part = t.setPort p (t.port p).load ∧
          u.pending = s.pending ∧ u.uplink = s.uplink) ∧
      (∀ l, newly → s.portsOwned → x.portState = .reconfig → x.engine.shift = .empty → x.pendingLoad = some l →
        s.part.waitList = [] → Ends (.dsrDebounceExpiry p) s fun u => ∃ t,
          PresenceTaken p (s.part.setPort p y) t ∧
          LoadFinished p { l with flushed := some (l.flushed.getD x.engine.fifo.length) } t u.part ∧
          (u.part.port p).portState = .localHold ∧ NoticedInOrder p s.part u.part ∧
          (∀ n, s.part.owns n p = true → s.part.notices.length < 32 → ∃ m ∈ u.part.notices, m.dst = s.part.addressOf n ∧
            m.body = .sessionEvent n (s.part.session n).tag p .localPresence none) ∧
          u.pending = s.pending ∧ u.uplink = s.uplink))

/-- The timers of a port expire, and nothing happens where none runs. RECONFIG (R51): the FIFO is flushed and counted,
RECONFIG_FLUSH is set, and the load waits for the character in the register or comes to its moment, whether a signal runs on or, the
new entry finding presence asserted, is ended by it; the port's conditions are then notified in the order of the table (R179). Idle gap (R88): the open
block, if there is one, closes with GAP. Hold (R105): a HELD or RETRY head is FORFEIT, HOLD_EXPIRED is set and counted. That an
expiry with no timer running changes nothing, and that one is taken whatever time is left, are the model's choices (log 3, 4), the latter behind an admission too (log 57); the
order inside an apply, that the limit and the apply it brings are one event whose notices stand in the table's order, and what a signal
ended by presence leaves behind (R57, R174), its readings and choices (log 15, 17, 18, 21, 36, 55). -/
def Obligations.PortTimersExpire : Prop :=
  ∀ (s : State) (p : PortNo),
    let x := s.part.port p
    (x.reconfigTimer = none → EndsPart (.reconfigTimerExpiry p) s s.part) ∧
    (∀ l, x.reconfigTimer ≠ none → x.pendingLoad = some l →
      let l' := { l with flushed := some (l.flushed.getD x.engine.fifo.length) }
      let y := { x with engine := { x.engine with fifo := [] }, reconfigTimer := none, pendingLoad := some l' }
      (x.engine.shift ≠ .empty → EndsPart (.reconfigTimerExpiry p) s (setCondition p .reconfigFlush (s.part.setPort p y))) ∧
      (x.engine.shift = .empty → (x.signal = none ∨ l.entry.presenceSource ≠ .dsr ∨ x.dsrDebounced = false ∨ s.slotsHeld) →
        s.part.waitList = [] → Ends (.reconfigTimerExpiry p) s fun u =>
        LoadFinished p l' (setCondition p .reconfigFlush (s.part.setPort p y)) u.part ∧
        hasCondition (u.part.port p).conditions .reconfigFlush = true ∧
        NoticedInOrder p s.part u.part ∧
        u.pending = s.pending ∧ u.uplink = s.uplink)) ∧
    (x.gapTimer = none → EndsPart (.idleGapExpiry p) s s.part) ∧
    (x.gapTimer ≠ none → x.openBlock = none → EndsPart (.idleGapExpiry p) s (s.part.setPort p { x with gapTimer := none })) ∧
    (∀ id, x.gapTimer ≠ none → x.openBlock = some id → EndsPart (.idleGapExpiry p) s
      ((s.part.setPort p { x with gapTimer := none, openBlock := none, blockQueue := x.blockQueue ++ [id] }).modBlock id
        fun b => { b with closeReason := some .gap })) ∧
    ((x.holdTimer = none ∨ (x.headHold ≠ .held ∧ x.headHold ≠ .retry)) → EndsPart (.holdTimerExpiry p) s s.part) ∧
    (x.holdTimer ≠ none → (x.headHold = .held ∨ x.headHold = .retry) → EndsPart (.holdTimerExpiry p) s
      (setCondition p .holdExpired (s.part.setPort p { x with
        headHold := .forfeit, holdTimer := none
        counters := { x.counters with holdExpiries := x.counters.holdExpiries + 1 } })))

/-- The phases of a signal run out (R172, R173): SPACE ends in MARK for one character time, with the stop still holding; MARK
ends the BREAK and ON ends a pulse: the record is empty, the delayed reply is ADJUSTED or OK with the kind, the duration and
the elapsed time equal to it, AUX or DTR takes its AUTO value, and the transmitter may load. An expiry of a phase that is not
the signal's changes nothing. In RECONFIG, with nothing left to send, the load then comes to its moment (R50); otherwise it
waits on. AUX's pin has the entry's active level under ASSERT, the other under DEASSERT and is not driven under RELEASE; TXD is at
mark while the engine is stopped and at space in a BREAK's SPACE phase (R168), and otherwise carries the character in the register bit
by bit in the port's format, XON and XOFF as 0x11 and 0x13 (R23, R30, R33), or mark where there is none. That an expiry is taken whatever time is left, and
that an apply during a pulse that changes the active level moves the pin at once, are the model's choices (log 3, 4, 48), and the order
inside an apply its reading (log 17, 18). -/
def Obligations.SignalPhasesRunOut : Prop :=
  ∀ (s : State) (p : PortNo),
    let x := s.part.port p
    (∀ g, x.signal = some g → g.phase = .space → EndsPart (.breakSpaceExpiry p) s (s.part.setPort p { x with
      signal := some { g with phase := .mark (x.profile.charBits * (2 * x.profile.d8)), elapsed := g.duration } })) ∧
    ((∀ g, x.signal = some g → g.phase ≠ .space) → EndsPart (.breakSpaceExpiry p) s s.part) ∧
    ((∀ g n, x.signal = some g → g.phase ≠ .mark n) → EndsPart (.breakMarkExpiry p) s s.part) ∧
    ((∀ g, x.signal = some g → g.phase ≠ .on) → EndsPart (.pulseExpiry p) s s.part) ∧
    (∀ g h i l, x.signal = some g → s.part.slot g.slot = .reserved h → x.portState = .reconfig → x.pendingLoad = some l →
      l.flushed = none → x.engine.fifo = [] → x.engine.shift = .empty → x.engine.pendingFlow = none → s.part.waitList = [] →
      ((∃ n, g.phase = .mark n ∧ i = .breakMarkExpiry p) ∨ (g.phase = .on ∧ i = .pulseExpiry p)) →
      Ends i s fun u =>
        LoadFinished p l { s.part.setPort p (Port.refreshLines { x with signal := none }) with
          slots := s.part.slots.set g.slot (.formed h (if g.clamped then .adjusted else .ok)
            (bytesOf 1 g.kind.code ++ bytesOf 2 g.duration ++ bytesOf 2 g.duration))
          formed := s.part.formed ++ [g.slot] } u.part ∧ u.pending = s.pending ∧ u.uplink = s.uplink) ∧
    (x.auxPin = (match x.lines.aux, x.profile.auxLevel with
      | .assert, level => some level
      | .deassert, .high => some .low
      | .deassert, .low => some .high
      | .release, _ => none)) ∧
    (x.portState = .disabled → x.txd = .mark) ∧
    (∀ g, x.portState ≠ .disabled → x.signal = some g → g.phase = .space → x.txd = .space) ∧
    (x.portState ≠ .disabled → (∀ g, x.signal = some g → g.phase ≠ .space) →
      x.txd = match x.engine.shift with
        | .empty => .mark
        | .key v _ => .character (asSent x.profile v)
        | .flow .xon => .character (asSent x.profile 0x11)
        | .flow .xoff => .character (asSent x.profile 0x13)) ∧
    (∀ g h i, x.signal = some g → s.part.slot g.slot = .reserved h →
      (x.portState ≠ .reconfig ∨ x.engine.fifo ≠ [] ∨ x.engine.shift ≠ .empty ∨ x.engine.pendingFlow ≠ none ∨
        ∀ l, x.pendingLoad = some l → l.flushed ≠ none) →
      ((∃ n, g.phase = .mark n ∧ i = .breakMarkExpiry p) ∨ (g.phase = .on ∧ i = .pulseExpiry p)) →
      Ends i s fun u =>
        (u.part.port p).signal = none ∧
        u.part.slots = s.part.slots.set g.slot (.formed h (if g.clamped then .adjusted else .ok)
          (bytesOf 1 g.kind.code ++ bytesOf 2 g.duration ++ bytesOf 2 g.duration)) ∧
        u.part.formed = s.part.formed ++ [g.slot] ∧
        u.part.port p = Port.load (Port.refreshLines { x with signal := none }) ∧
        (x.portState ≠ .disabled → x.profile.auxControl = .auto → (u.part.port p).lines.aux = .deassert) ∧
        (x.portState ≠ .disabled → x.profile.dtrControl = .auto → (u.part.port p).lines.dtr = .assert) ∧
        Leaves u { s.part with ports := u.part.ports } ∧ (∀ q, q ≠ p → u.part.port q = s.part.port q) ∧
        u.pending = s.pending ∧ u.uplink = s.uplink)

/-! ### Fan-out and delivery -/

/-- Session n owns port p (R120). -/
def Sys2Proof.Claims.isOwner (s : Part) (p : PortNo) (n : SessionNo) : Prop :=
  (s.session n).state ≠ .free ∧ (s.session n).port = p ∧ (s.session n).role = .owner

/-- Tap t matches block b at a serve (R148): it is enabled, copies OUTPUT or BOTH, has the origin port in its mask; its peer filter, if
it names an index, names one that holds a session on the port; and marked-only, it has a mark group in common with the block. -/
def Sys2Proof.Claims.takesOutput (s : Part) (t : TapNo) (b : Block) : Prop :=
  let e := (s.tap t).entry
  e.enabled = true ∧ (e.direction = .output ∨ e.direction = .both) ∧ e.portMask.getLsbD b.port.val = true ∧
  (∀ i, e.peerFilter = some i →
    ∃ n, (s.session n).state ≠ .free ∧ (s.session n).port = b.port ∧ (s.session n).peer.val = i) ∧
  (e.markedOnly ≠ .no → b.marks &&& e.groupMask ≠ 0)

/-- The copy list of block b, in its three parts (R99): the queue of the port's owner, the queue of the highest-numbered tap that
matches (R150), and those of the ACTIVE observers in ascending session number. -/
structure Sys2Proof.Claims.CopyList (s : Part) (b : Block) (owner tap observers : List QueueNo) : Prop where
  owned : ∀ n, isOwner s b.port n → (∀ m, m < n → ¬isOwner s b.port m) → owner = [sessionQueue n]
  unowned : (∀ n, ¬isOwner s b.port n) → owner = []
  tapped : ∀ t, takesOutput s t b → (∀ t', t < t' → ¬takesOutput s t' b) → tap = [tapQueue t]
  untapped : (∀ t, ¬takesOutput s t b) → tap = []
  watched : ∃ l : List SessionNo, observers = l.map sessionQueue ∧ l.Pairwise (· < ·) ∧
    ∀ n, n ∈ l ↔ ((s.session n).state = .active ∧ (s.session n).port = b.port ∧ (s.session n).role = .observer)

/-- limit(q): the queue limit of the session or the tap whose queue it is (R75). -/
def Sys2Proof.Claims.limitOf (s : Part) (q : QueueNo) : Nat :=
  if h : q.val < 64 then (s.session ⟨q.val, h⟩).queueLimit else (s.tap ⟨q.val - 64, by omega⟩).entry.queueLimit

/-- The queues of the list that are admitted a reference to the block, each entry decided in turn as the one before left the shared
count (R76, R98). -/
def Sys2Proof.Claims.admittedTo (s : Part) (id : Nat) : Nat → List QueueNo → List QueueNo
  | _, [] => []
  | shared, q :: rest =>
    let length := (s.queue q).length
    if (∀ r ∈ s.queue q, r.block ≠ id) ∧ (length < 4 ∨ length < limitOf s q ∧ shared < 752) then
      q :: admittedTo s id (if length < 4 then shared else shared + 1) rest
    else admittedTo s id shared rest

/-- The fan-out serves the first eligible head after the port served last (R98 to R108), while no port waits for a cell; with
none eligible nothing happens. The entries of the copy list, written out above, are decided in turn (R76). In HOLD mode a head not
yet FORFEIT whose owner's copy is refused is HELD, its timer starting unless it runs on, and no copy is placed (R103). Otherwise the
serve completes: each admitted entry of those attempted has a reference at the tail of its queue, a tap counting it; every other entry
is a dropped copy, counted on the port and in its reader's gap: one refused, the owner's in FORFEIT, and under pressure those beyond
the attempts (R100, R105, R108, R144, R154). The block moves to the Output Chain, whose oldest blocks leave it until its cells are
within the history limit and no longer, each losing its chain hold (R107, R111); the head state is NONE. Nothing else of the sessions,
taps and queues changes, nor of the port but what a freed block brings. That a serve with no eligible head changes nothing, and that
a forfeited copy uses up an attempt, are the model's (log 3, 41). -/
def Obligations.FanoutHandsOverTheHead : Prop :=
  ∀ s : State,
    ((∀ p, (s.part.port p).blockQueue = [] ∨ (s.part.port p).headHold = .held) → EndsPart .fanoutServe s s.part) ∧
    ∀ (p : PortNo) (id : Nat) (rest : List Nat) (b : Block),
      (s.part.port p).blockQueue = id :: rest → (s.part.port p).headHold ≠ .held → s.part.block id = some b → b.id = id →
      b.port = p →
      (∀ q : PortNo, (q.val + 48 - (s.part.lastServed.val + 1)) % 48 < (p.val + 48 - (s.part.lastServed.val + 1)) % 48 →
        (s.part.port q).blockQueue = [] ∨ (s.part.port q).headHold = .held) →
      ∃ owner tap observers, CopyList s.part b owner tap observers ∧
      let x := s.part.port p
      let list := owner ++ tap ++ observers
      let shared := ((List.finRange 68).map fun q => (s.part.queue q).length - 4).sum
      let refused := owner ≠ [] ∧ admittedTo s.part id shared owner = []
      let pressed := x.profile.pressureThreshold ≠ 0 ∧ x.profile.pressureThreshold < x.blockQueue.length
      let attempted := (if pressed then list.take x.profile.pressureCopies else list).drop
        (if x.headHold = .forfeit then owner.length else 0)
      let given := admittedTo s.part id shared attempted
      let cells := fun l : List Nat => (l.map fun j => ((s.part.block j).map fun d => d.cells.length).getD 0).sum
      (x.profile.mode = .hold → x.headHold ≠ .forfeit → refused →
        EndsPart .fanoutServe s { s.part.setPort p { x with
          headHold := .held
          holdTimer := if x.headHold = .retry then x.holdTimer
                       else if x.profile.holdLimit = 0 then none else some (x.profile.holdLimit * 1000) } with
          lastServed := p }) ∧
      (¬(x.profile.mode = .hold ∧ x.headHold ≠ .forfeit ∧ refused) → s.part.waitList = [] → Ends .fanoutServe s fun u =>
        let y := u.part.port p
        u.part.lastServed = p ∧
        (∀ q, u.part.queue q =
          if q ∈ given then s.part.queue q ++ [{ block := id, history := false }] else s.part.queue q) ∧
        (∀ n, u.part.session n =
          if sessionQueue n ∈ list ∧ sessionQueue n ∉ given then
            { s.part.session n with gapBytes := (s.part.session n).gapBytes + BitVec.ofNat 32 b.length }
          else s.part.session n) ∧
        (∀ t, u.part.tap t =
          let k := (s.part.tap t).counters
          { s.part.tap t with
            counters :=
              if tapQueue t ∈ given then { k with copiesQueued := k.copiesQueued + 1 }
              else if tapQueue t ∈ list then
                { k with copiesDropped := k.copiesDropped + 1, outputGap := k.outputGap + BitVec.ofNat 32 b.length }
              else k }) ∧
        y = { x with
          blockQueue := rest, headHold := .noHold, holdTimer := none
          counters := { x.counters with
            droppedCopies := x.counters.droppedCopies + BitVec.ofNat 32 (list.length - given.length) }
          chain := y.chain, portUse := y.portUse, engine := y.engine, conditions := y.conditions, lines := y.lines } ∧
        (u.part.chainCells p ≤ x.profile.historyLimit ∧ ∃ olds, x.chain ++ [id] = olds ++ y.chain ∧
          (∀ j, j < olds.length → x.profile.historyLimit < cells ((x.chain ++ [id]).drop j)) ∧
          ((x.chain ++ [id]).Nodup → ∀ j d, s.part.block j = some d →
            let holds := d.refCount + (if j = id then given.length else 0)
            u.part.block j = if j ∈ olds then (if holds ≤ 1 then none else some { d with refCount := holds - 1 })
              else some { d with refCount := holds })) ∧
        (∀ q, q ≠ p → PortStands (s.part.port q) (u.part.port q)) ∧ u.part.mem = s.part.mem ∧
        u.part.slots = s.part.slots ∧ u.part.formed = s.part.formed ∧ u.pending = s.pending ∧ u.uplink = s.uplink)

/-- The timers of a session expire, and nothing happens where none runs: an ACTIVE session's idle timer, run down to 0, ends it with
TIMEOUT and a notice to its peer, and one that a request has set back does not (R124); a DRAINING session's drain limit ends it with
DETACHED, its delayed reply FLUSHED with the number of entries that were still queued (R128). That an expiry with no timer
running changes nothing, and that the drain limit's is taken whatever time is left, are the model's choices (log 3, 4). -/
def Obligations.SessionTimersEndSessions : Prop :=
  ∀ (s : State) (n : SessionNo),
    let x := s.part.session n
    (¬(x.state = .active ∧ x.idleTimer = some 0) → EndsPart (.sessionIdleTimeout n) s s.part) ∧
    (x.state = .active → x.idleTimer = some 0 → Ends (.sessionIdleTimeout n) s fun u =>
      SessionEnded n .timeout .aborted 0 (some (.timeout, s.part.addressOf n)) s.part u.part ∧
      u.pending = s.pending ∧ u.uplink = s.uplink) ∧
    (¬(x.state = .draining ∧ x.drainTimer ≠ none) → EndsPart (.drainTimerExpiry n) s s.part) ∧
    (x.state = .draining → x.drainTimer ≠ none → Ends (.drainTimerExpiry n) s fun u =>
      SessionEnded n .detached .flushed (s.part.queue (sessionQueue n)).length none s.part u.part ∧
      u.pending = s.pending ∧ u.uplink = s.uplink)

/-- The header of a frame the part sends, and its body, before padding and check sequence (R187). -/
def Sys2Proof.Claims.sentHead (station : Mac) (dst : Address) (kind : Nat) (tag : Word16) (session : Byte) (body : List Byte) :
    List Byte :=
  bytesOf 6 dst.mac.toNat ++ bytesOf 6 station.toNat ++ [0x88, 0xB5, 0x01] ++ bytesOf 1 kind ++ bytesOf 2 dst.peerId.toNat
    ++ bytesOf 2 tag.toNat ++ [session, 0] ++ bytesOf 2 body.length ++ body

/-- The uplink is ready for a data frame while the link is up, nothing is in transmission, and no reply and no notice waits. Ready, the
Scheduler stays on the current queue while frames are left and it is not empty; otherwise the first queue with an entry, in
ascending order after the current one, wrapping, itself last, becomes current with its weight as frames left; with every queue empty
there is no candidate (R156, R157). `r` is the part once it has named its candidate. A data frame begins (R158 to R160, R162, R163)
when the uplink is ready and the level is at least its charged length, max(64, L + 40): the candidate leaves its queue, the level
falls by that length, the visit advances, and the frame is an OUTPUT frame to the session's peer, whose next expected offset moves
on, or a TAPCOPY frame to the tap's collector. Otherwise nothing happens. That a begin without its occasion changes nothing more than the naming, the moment of the naming, and the 0 that stands
for the close reason of a queued block without one, which no run has, are the model's (log 3, 11, 37). -/
def Obligations.DataFramesBegin : Prop :=
  ∀ (s : State),
    let r := (settle s).part
    let ready := s.uplink.link = .up ∧ s.part.transmission = none ∧ s.part.formed = [] ∧ s.part.notices = []
    let after := fun q : QueueNo => (q.val + 68 - (s.part.curQueue.val + 1)) % 68
    let visiting := s.part.framesLeft ≠ 0 ∧ s.part.queue s.part.curQueue ≠ []
    (¬ready ∨ visiting → r.curQueue = s.part.curQueue ∧ r.framesLeft = s.part.framesLeft) ∧
    (∀ q, ready → ¬visiting → s.part.queue q ≠ [] → (∀ q', after q' < after q → s.part.queue q' = []) → r.curQueue = q ∧
      (∀ n, q = sessionQueue n → r.framesLeft = (s.part.session n).weight) ∧
      (∀ t, q = tapQueue t → r.framesLeft = (s.part.tap t).entry.weight)) ∧
    (ready → (∀ q, s.part.queue q = []) → r.curQueue = s.part.curQueue ∧ r.framesLeft = 0) ∧
    ((¬ready ∨ r.framesLeft = 0 ∨ r.queue r.curQueue = []) → exec .dataFrameBegin s = .next (settle (settle s))) ∧
    ∀ (ref : Ref) (rest : List Ref) (b : Block), ready → r.framesLeft ≠ 0 → r.queue r.curQueue = ref :: rest →
      r.block ref.block = some b → b.length ≤ 512 →
      let cost := max 64 (b.length + 40)
      let bytes := Memory.readBlock r.mem b.cells b.length
      (s.uplink.level < cost → exec .dataFrameBegin s = .next (settle (settle s))) ∧
      ((cost : Int) ≤ s.uplink.level → Ends .dataFrameBegin s fun u =>
        u.uplink = { s.uplink with level := s.uplink.level - cost } ∧ u.pending = s.pending ∧
        u.part.queue r.curQueue = rest ∧ (∀ q, q ≠ r.curQueue → u.part.queue q = s.part.queue q) ∧
        u.part.curQueue = r.curQueue ∧ u.part.framesLeft = r.framesLeft - 1 ∧ u.part.mem = s.part.mem ∧
        u.part.blocks = s.part.blocks ∧
        (∀ n, r.curQueue = sessionQueue n → let x := s.part.session n
          (∃ frame, u.part.transmission = some ⟨.output b.id r.curQueue (some n), frame, false⟩ ∧ frame.length = cost ∧
            ∃ more, frame = sentHead s.part.system.station (s.part.addressOf n) 0x81 0 (BitVec.ofNat 8 n.val)
              (bytesOf 2 x.tag.toNat ++ bytesOf 1 b.port.val ++ [b.epoch] ++ bytesOf 4 b.start.toNat ++ bytesOf 2 b.length
                ++ [b.marks] ++ bytesOf 1 ((b.closeReason.map CloseReason.code).getD 0
                  + (if b.start = x.nextOffset then 0 else 64) + (if ref.history then 128 else 0)) ++ bytes) ++ more) ∧
          u.part.session n = { x with nextOffset := b.start + BitVec.ofNat 32 b.length } ∧
          (∀ m, m ≠ n → u.part.session m = s.part.session m) ∧
          (s.part.owns n x.port = true → u.part.port x.port = retried (s.part.port x.port))) ∧
        (∀ t, r.curQueue = tapQueue t →
          let y := s.part.peer (Fin.ofNat 32 (s.part.tap t).entry.collector)
          (∃ frame, u.part.transmission = some ⟨.tapcopy b.id r.curQueue, frame, false⟩ ∧ frame.length = cost ∧
            ∃ more, frame = sentHead s.part.system.station ⟨y.mac, y.peerId⟩ 0x82 0 0xFF
              (bytesOf 1 t.val ++ bytesOf 1 b.kind.code ++ bytesOf 1 b.port.val ++ [b.epoch] ++ bytesOf 4 b.start.toNat
                ++ optByte (b.sender.map Fin.val) ++ [b.marks] ++ bytesOf 2 b.length ++ bytes) ++ more) ∧
          u.part.sessions = s.part.sessions))

/-- A data frame completes (R161): its counter rises and the record is empty; for an OUTPUT frame that still names a session
the block's bytes fold into its output digest, and a DRAINING session whose queue is empty ends with DETACHED and OK; a block
with other holds loses one, and one whose last hold the frame's was is freed before the drain is looked at (R63, R64): its origin port's
request is then retried, and, if shared_in_use fell, those of all ports that wait, oldest first (R68, R71), here with none waiting or
with bytes waiting that begin blocks on ports without history or triggers. Without such a frame on the wire nothing happens. That a completion without such a frame changes
nothing, that a block is named by its first cell, and that an admission needs a free cell, which R66 gives in every run, are the
model's choices (log 3, 12, 37). -/
def Obligations.DataFramesComplete : Prop :=
  ∀ (s : State),
    ((∀ b q n frame, s.part.transmission ≠ some ⟨.output b q n, frame, false⟩) →
      (∀ b q frame, s.part.transmission ≠ some ⟨.tapcopy b q, frame, false⟩) →
      exec .dataFrameComplete s = .next (settle s)) ∧
    (∀ id q frame b, s.part.transmission = some ⟨.tapcopy id q, frame, false⟩ → s.part.block id = some b → 2 ≤ b.refCount →
      exec .dataFrameComplete s = .next (settle { s with
        uplink := { s.uplink with tapFramesSent := s.uplink.tapFramesSent + 1 }
        part := { s.part.modBlock id fun b => { b with refCount := b.refCount - 1 } with transmission := none } })) ∧
    (∀ id q frame b, s.part.transmission = some ⟨.output id q none, frame, false⟩ → s.part.block id = some b → 2 ≤ b.refCount →
      exec .dataFrameComplete s = .next (settle { s with
        uplink := { s.uplink with outputFramesSent := s.uplink.outputFramesSent + 1 }
        part := { s.part.modBlock id fun b => { b with refCount := b.refCount - 1 } with transmission := none } })) ∧
    (∀ id q n frame b, s.part.transmission = some ⟨.output id q (some n), frame, false⟩ → s.part.block id = some b →
      2 ≤ b.refCount →
      let x := { s.part.session n with outputDigest :=
        (Memory.readBlock s.part.mem b.cells b.length).foldl foldByte (s.part.session n).outputDigest }
      let t := (s.part.setSession n x).modBlock id fun b => { b with refCount := b.refCount - 1 }
      (¬(x.state = .draining ∧ s.part.queue (sessionQueue n) = []) → exec .dataFrameComplete s = .next (settle { s with
        uplink := { s.uplink with outputFramesSent := s.uplink.outputFramesSent + 1 }
        part := { t with transmission := none } })) ∧
      (x.state = .draining → s.part.queue (sessionQueue n) = [] → Ends .dataFrameComplete s fun u =>
        u.uplink = { s.uplink with outputFramesSent := s.uplink.outputFramesSent + 1 } ∧ u.pending = s.pending ∧
        ∃ v, SessionEnded n .detached .ok 0 none t v ∧ u.part = { v with transmission := none })) ∧
    (∀ id q frame b, s.part.transmission = some ⟨.tapcopy id q, frame, false⟩ → s.part.block id = some b → b.refCount ≤ 1 →
      (s.part.waitList = [] ∨ (BeginnersWait s.part ∧ s.cellsOnce)) → Ends .dataFrameComplete s fun u =>
        u.uplink = { s.uplink with tapFramesSent := s.uplink.tapFramesSent + 1 } ∧ u.pending = s.pending ∧
        (∃ more, u.part.notices = s.part.notices ++ more) ∧
        ∃ t, BlockFreed b s.part t ∧ u.part = { retriesAfter b s.part t with
          transmission := none, notices := u.part.notices, noticesLost := u.part.noticesLost }) ∧
    (∀ id q tag frame b, s.part.transmission = some ⟨.output id q tag, frame, false⟩ → s.part.block id = some b →
      b.refCount ≤ 1 → (s.part.waitList = [] ∨ (BeginnersWait s.part ∧ s.cellsOnce)) →
      let folded := match tag with
        | some n => s.part.setSession n { s.part.session n with outputDigest :=
            (Memory.readBlock s.part.mem b.cells b.length).foldl foldByte (s.part.session n).outputDigest }
        | none => s.part
      let drained := fun n => (s.part.session n).state = .draining ∧ s.part.queue (sessionQueue n) = []
      Ends .dataFrameComplete s fun u =>
        u.uplink = { s.uplink with outputFramesSent := s.uplink.outputFramesSent + 1 } ∧ u.pending = s.pending ∧
        ∃ t w, BlockFreed b folded t ∧ (∃ more, w.notices = s.part.notices ++ more) ∧
          w = { retriesAfter b folded t with notices := w.notices, noticesLost := w.noticesLost } ∧
          ((∀ n, tag = some n → ¬drained n) → u.part = { w with transmission := none }) ∧
          ∀ n, tag = some n → drained n →
            ∃ v, SessionEnded n .detached .ok 0 none w v ∧ u.part = { v with transmission := none })

/-- A whole control frame: header and body, padding to byte 60 with zeros, and four bytes of frame check sequence (R187). -/
def Sys2Proof.Claims.WholeFrame (frame : List Byte) (station : Mac) (dst : Address) (kind : Nat) (tag : Word16) (session : Byte)
    (body : List Byte) : Prop :=
  ∃ fcs : List Byte, fcs.length = 4 ∧ frame = sentHead station dst kind tag session body
    ++ List.replicate (60 - (sentHead station dst kind tag session body).length) 0 ++ fcs

/-- The session number field and the body of a notice (R182, R189). -/
def Sys2Proof.Claims.noticeLayout (m : Notice) : Byte × List Byte :=
  let lost : Byte := if m.lost then 1 else 0
  match m.body with
  | .portCondition p epoch c set record =>
    (0xFF, [0, lost] ++ (bytesOf 1 p.val ++ [epoch] ++ bytesOf 1 c.code ++ bytesOf 2 set.toNat
      ++ match record with
         | some (t, offset) => bytesOf 1 t.val ++ bytesOf 4 offset.toNat
         | none => [0xFF, 0, 0, 0, 0]))
  | .sessionEvent n tag p reason taker =>
    (BitVec.ofNat 8 n.val, [1, lost] ++ (bytesOf 2 tag.toNat ++ bytesOf 1 p.val ++ bytesOf 1 reason.code
      ++ match taker with
         | some k => bytesOf 1 k.val
         | none => [0xFF]))
  | .attention t n i p tag =>
    (BitVec.ofNat 8 t.val, [2, lost] ++ (bytesOf 1 n.val ++ bytesOf 1 i.val ++ bytesOf 1 p.val ++ bytesOf 2 tag.toNat))

/-- Control frames (R14, R136, R162 to R164, R181, R182, R187, R189): one begins when the link is up, the uplink free, and the
level stays at or above −burst after its length is charged; the choice between a waiting reply and a waiting notice is the kind
not taken last. It is the oldest of its kind, laid out whole. A reply that completes frees its slot and is counted; a notice that
completes leaves the head of its queue, clears the pending flag it stood for, and is counted. Without such a frame nothing
happens. That a begin or completion without its occasion changes nothing more, the moment of the choice, and the frame check
sequence, a free value, are the model's (log 3, 5, 11). -/
def Obligations.ControlFramesAlternate : Prop :=
  ∀ (s : State),
    (s.uplink.link = .up → s.part.transmission = none → s.part.chosen = none → (settle s).part.chosen =
      (if s.part.formed ≠ [] ∧ (s.part.notices = [] ∨ s.part.lastControl = .notice) then some .reply
       else if s.part.notices ≠ [] then some .notice else none)) ∧
    ((s.uplink.link = .down ∨ s.part.transmission ≠ none ∨ (settle s).part.chosen = none) →
      exec .controlFrameBegin s = .next (settle (settle s))) ∧
    (∀ k rest h code data, s.uplink.link = .up → s.part.transmission = none → (settle s).part.chosen = some .reply →
      s.part.formed = k :: rest → s.part.slot k = .formed h code data →
      let length : Nat := max 64 (28 + (2 + data.length))
      ((s.uplink.level - length < -(s.part.system.burst : Int)) → exec .controlFrameBegin s = .next (settle (settle s))) ∧
      (-(s.part.system.burst : Int) ≤ s.uplink.level - length → Ends .controlFrameBegin s fun u => ∃ frame,
        frame.length = length ∧
        WholeFrame frame s.part.system.station ⟨h.source, h.peerId⟩ 0x80 h.tag h.session ([h.kind] ++ bytesOf 1 code.code ++ data) ∧
        u = { s with
          uplink := { s.uplink with level := s.uplink.level - length }
          part := { (settle s).part with transmission := some ⟨.reply k, frame, false⟩, lastControl := .reply, chosen := none } })) ∧
    (∀ m rest, s.uplink.link = .up → s.part.transmission = none → (settle s).part.chosen = some .notice →
      s.part.notices = m :: rest →
      ((s.uplink.level - 64 < -(s.part.system.burst : Int)) → exec .controlFrameBegin s = .next (settle (settle s))) ∧
      (-(s.part.system.burst : Int) ≤ s.uplink.level - 64 → Ends .controlFrameBegin s fun u => ∃ frame,
        frame.length = 64 ∧
        WholeFrame frame s.part.system.station m.dst 0x83 0 (noticeLayout m).1 (noticeLayout m).2 ∧
        u = { s with
          uplink := { s.uplink with level := s.uplink.level - 64 }
          part := { (settle s).part with transmission := some ⟨.notice m true, frame, false⟩, lastControl := .notice, chosen := none } })) ∧
    (∀ k frame, s.part.transmission = some ⟨.reply k, frame, false⟩ → exec .replyComplete s = .next (settle { s with
      uplink := { s.uplink with repliesSent := s.uplink.repliesSent + 1 }
      part := { s.part with transmission := none, slots := s.part.slots.set k .free, formed := s.part.formed.filter (· ≠ k) } })) ∧
    ((∀ k frame, s.part.transmission ≠ some ⟨.reply k, frame, false⟩) → exec .replyComplete s = .next (settle s)) ∧
    (∀ m queued frame, s.part.transmission = some ⟨.notice m queued, frame, false⟩ →
      let t := { s.part with transmission := none, notices := if queued then s.part.notices.tail else s.part.notices }
      exec .noticeComplete s = .next (settle { s with
        uplink := { s.uplink with noticesSent := s.uplink.noticesSent + 1 }
        part := match m.marks with
          | some n => t.setSession n { s.part.session n with attention := false }
          | none => t })) ∧
    ((∀ m queued frame, s.part.transmission ≠ some ⟨.notice m queued, frame, false⟩) → exec .noticeComplete s = .next (settle s))
end

