-- ==== Sys2Proof/Laws/Memory.lean ====
section
/-!
SUPPORT. The memory of the Cell Store: every write keeps the canonical form, a read after a write of the same address gives the
value written, and a write leaves every other address alone.
-/
namespace Sys2Proof.Machine

theorem Memory.mem_write {m : List Host.Cell} {a : Nat} {v : Byte} {c : Host.Cell} (h : c ∈ Memory.write m a v) :
    c = (a, v) ∨ c ∈ m := by
  induction m with
  | nil =>
    unfold Memory.write at h
    split at h <;> simp_all
  | cons d rest ih =>
    unfold Memory.write at h
    split_ifs at h <;> simp only [List.mem_cons] at h ⊢ <;> tauto

theorem Memory.write_nonzero {m : List Host.Cell} {a : Nat} {v : Byte} (h : ∀ c ∈ m, c.2 ≠ Memory.unlisted) :
    ∀ c ∈ Memory.write m a v, c.2 ≠ Memory.unlisted := by
  induction m with
  | nil =>
    intro c hc
    unfold Memory.write at hc
    split at hc <;> simp_all
  | cons d rest ih =>
    intro c hc
    have hd := h d (by simp)
    have hr : ∀ c ∈ rest, c.2 ≠ Memory.unlisted := fun c hc => h c (by simp [hc])
    unfold Memory.write at hc
    split_ifs at hc with h1 h2 h3 h4
    · exact h c hc
    · rcases List.mem_cons.1 hc with rfl | hc
      · exact h2
      · exact h c hc
    · exact hr c hc
    · rcases List.mem_cons.1 hc with rfl | hc
      · exact h4
      · exact hr c hc
    · rcases List.mem_cons.1 hc with rfl | hc
      · exact hd
      · exact ih hr c hc

/-- A write keeps the canonical form. -/
theorem Memory.write_wf {m : List Host.Cell} (h : Memory.wf m) (a : Nat) (v : Byte) : Memory.wf (Memory.write m a v) := by
  refine ⟨?_, Memory.write_nonzero h.2⟩
  induction m with
  | nil =>
    unfold Memory.write
    split <;> simp
  | cons d rest ih =>
    have hp := List.pairwise_cons.1 h.1
    have hr : Memory.wf rest := ⟨hp.2, fun c hc => h.2 c (by simp [hc])⟩
    unfold Memory.write
    split_ifs with h1 h2 h3 h4
    · exact h.1
    · refine List.pairwise_cons.2 ⟨?_, h.1⟩
      intro c hc
      rcases List.mem_cons.1 hc with rfl | hc
      · exact h1
      · exact lt_trans h1 (hp.1 c hc)
    · exact hp.2
    · exact List.pairwise_cons.2 ⟨fun c hc => h3 ▸ hp.1 c hc, hp.2⟩
    · refine List.pairwise_cons.2 ⟨?_, ih hr⟩
      intro c hc
      rcases Memory.mem_write hc with rfl | hc
      · exact lt_of_le_of_ne (not_lt.1 h1) (Ne.symm h3)
      · exact hp.1 c hc

theorem Memory.read_above {m : List Host.Cell} {a : Nat} (h : ∀ c ∈ m, a < c.1) : Memory.read m a = Memory.unlisted := by
  induction m with
  | nil => rfl
  | cons d rest ih =>
    unfold Memory.read
    rw [if_neg (Nat.ne_of_gt (h d (by simp)))]
    exact ih fun c hc => h c (by simp [hc])

/-- A read after a write of the same address gives the value written. -/
theorem Memory.read_write_self {m : List Host.Cell} (h : Memory.wf m) (a : Nat) (v : Byte) :
    Memory.read (Memory.write m a v) a = v := by
  induction m with
  | nil =>
    unfold Memory.write
    split <;> simp_all [Memory.read]
  | cons d rest ih =>
    have hp := List.pairwise_cons.1 h.1
    have hr : Memory.wf rest := ⟨hp.2, fun c hc => h.2 c (by simp [hc])⟩
    unfold Memory.write
    split_ifs with h1 h2 h3 h4
    · rw [h2]
      refine Memory.read_above fun c hc => ?_
      rcases List.mem_cons.1 hc with rfl | hc
      · exact h1
      · exact lt_trans h1 (hp.1 c hc)
    · simp [Memory.read]
    · rw [h4]
      exact Memory.read_above fun c hc => h3 ▸ hp.1 c hc
    · simp [Memory.read]
    · unfold Memory.read
      rw [if_neg (Ne.symm h3)]
      exact ih hr

/-- A write leaves every other address alone. -/
theorem Memory.read_write_ne (m : List Host.Cell) {a b : Nat} (v : Byte) (h : b ≠ a) :
    Memory.read (Memory.write m a v) b = Memory.read m b := by
  induction m with
  | nil =>
    unfold Memory.write
    split <;> simp [Memory.read, Ne.symm h]
  | cons d rest ih =>
    unfold Memory.write
    split_ifs with h1 h2 h3 h4
    · rfl
    · conv_lhs => unfold Memory.read
      simp [Ne.symm h]
    · conv_rhs => unfold Memory.read
      rw [if_neg (h3 ▸ Ne.symm h)]
    · conv_lhs => unfold Memory.read
      conv_rhs => unfold Memory.read
      rw [if_neg (Ne.symm h), if_neg (h3 ▸ Ne.symm h)]
    · conv_lhs => unfold Memory.read
      conv_rhs => unfold Memory.read
      rw [ih]

/-- Writing the bytes of a key copy keeps the canonical form. -/
theorem Memory.writeBlock_wf {m : List Host.Cell} (h : Memory.wf m) (cells : List Nat) (k : Nat) (bytes : List Byte) :
    Memory.wf (Memory.writeBlock m cells k bytes) := by
  induction bytes generalizing m k with
  | nil => exact h
  | cons v rest ih => exact ih (Memory.write_wf h _ v) (k + 1)

end Sys2Proof.Machine
end

