-- ==== Sys2Proof/Laws/State.lean ====
section
/-!
SUPPORT. One lemma per field per update of the state, so that no later proof unfolds a record update, and what each accessor
reads after each update.
-/
namespace Sys2Proof.Machine

@[simp] theorem Part.setPort_slots (s : Part) (p : PortNo) (x : Port) : (s.setPort p x).slots = s.slots := rfl
@[simp] theorem Part.setPort_formed (s : Part) (p : PortNo) (x : Port) : (s.setPort p x).formed = s.formed := rfl
@[simp] theorem Part.setPort_peers (s : Part) (p : PortNo) (x : Port) : (s.setPort p x).peers = s.peers := rfl
@[simp] theorem Part.setPort_triggers (s : Part) (p : PortNo) (x : Port) : (s.setPort p x).triggers = s.triggers := rfl
@[simp] theorem Part.setPort_taps (s : Part) (p : PortNo) (x : Port) : (s.setPort p x).taps = s.taps := rfl
@[simp] theorem Part.setPort_system (s : Part) (p : PortNo) (x : Port) : (s.setPort p x).system = s.system := rfl
@[simp] theorem Part.setPort_commissioningStrap (s : Part) (p : PortNo) (x : Port) : (s.setPort p x).commissioningStrap = s.commissioningStrap := rfl
@[simp] theorem Part.setPort_addressStraps (s : Part) (p : PortNo) (x : Port) : (s.setPort p x).addressStraps = s.addressStraps := rfl
@[simp] theorem Part.setPort_commissioning (s : Part) (p : PortNo) (x : Port) : (s.setPort p x).commissioning = s.commissioning := rfl
@[simp] theorem Part.setPort_sessions (s : Part) (p : PortNo) (x : Port) : (s.setPort p x).sessions = s.sessions := rfl
@[simp] theorem Part.setPort_mem (s : Part) (p : PortNo) (x : Port) : (s.setPort p x).mem = s.mem := rfl
@[simp] theorem Part.setPort_freeList (s : Part) (p : PortNo) (x : Port) : (s.setPort p x).freeList = s.freeList := rfl
@[simp] theorem Part.setPort_blocks (s : Part) (p : PortNo) (x : Port) : (s.setPort p x).blocks = s.blocks := rfl
@[simp] theorem Part.setPort_tapUse (s : Part) (p : PortNo) (x : Port) : (s.setPort p x).tapUse = s.tapUse := rfl
@[simp] theorem Part.setPort_waitList (s : Part) (p : PortNo) (x : Port) : (s.setPort p x).waitList = s.waitList := rfl
@[simp] theorem Part.setPort_walkDue (s : Part) (p : PortNo) (x : Port) : (s.setPort p x).walkDue = s.walkDue := rfl
@[simp] theorem Part.setPort_queues (s : Part) (p : PortNo) (x : Port) : (s.setPort p x).queues = s.queues := rfl
@[simp] theorem Part.setPort_lastServed (s : Part) (p : PortNo) (x : Port) : (s.setPort p x).lastServed = s.lastServed := rfl
@[simp] theorem Part.setPort_curQueue (s : Part) (p : PortNo) (x : Port) : (s.setPort p x).curQueue = s.curQueue := rfl
@[simp] theorem Part.setPort_framesLeft (s : Part) (p : PortNo) (x : Port) : (s.setPort p x).framesLeft = s.framesLeft := rfl
@[simp] theorem Part.setPort_transmission (s : Part) (p : PortNo) (x : Port) : (s.setPort p x).transmission = s.transmission := rfl
@[simp] theorem Part.setPort_lastControl (s : Part) (p : PortNo) (x : Port) : (s.setPort p x).lastControl = s.lastControl := rfl
@[simp] theorem Part.setPort_chosen (s : Part) (p : PortNo) (x : Port) : (s.setPort p x).chosen = s.chosen := rfl
@[simp] theorem Part.setPort_notices (s : Part) (p : PortNo) (x : Port) : (s.setPort p x).notices = s.notices := rfl
@[simp] theorem Part.setPort_noticesLost (s : Part) (p : PortNo) (x : Port) : (s.setPort p x).noticesLost = s.noticesLost := rfl
@[simp] theorem Part.setPort_imageState (s : Part) (p : PortNo) (x : Port) : (s.setPort p x).imageState = s.imageState := rfl
@[simp] theorem Part.setPort_flash (s : Part) (p : PortNo) (x : Port) : (s.setPort p x).flash = s.flash := rfl
@[simp] theorem Part.setPort_save (s : Part) (p : PortNo) (x : Port) : (s.setPort p x).save = s.save := rfl

@[simp] theorem Part.setSession_slots (s : Part) (n : SessionNo) (x : Session) : (s.setSession n x).slots = s.slots := rfl
@[simp] theorem Part.setSession_formed (s : Part) (n : SessionNo) (x : Session) : (s.setSession n x).formed = s.formed := rfl
@[simp] theorem Part.setSession_peers (s : Part) (n : SessionNo) (x : Session) : (s.setSession n x).peers = s.peers := rfl
@[simp] theorem Part.setSession_triggers (s : Part) (n : SessionNo) (x : Session) : (s.setSession n x).triggers = s.triggers := rfl
@[simp] theorem Part.setSession_taps (s : Part) (n : SessionNo) (x : Session) : (s.setSession n x).taps = s.taps := rfl
@[simp] theorem Part.setSession_system (s : Part) (n : SessionNo) (x : Session) : (s.setSession n x).system = s.system := rfl
@[simp] theorem Part.setSession_commissioningStrap (s : Part) (n : SessionNo) (x : Session) : (s.setSession n x).commissioningStrap = s.commissioningStrap := rfl
@[simp] theorem Part.setSession_addressStraps (s : Part) (n : SessionNo) (x : Session) : (s.setSession n x).addressStraps = s.addressStraps := rfl
@[simp] theorem Part.setSession_commissioning (s : Part) (n : SessionNo) (x : Session) : (s.setSession n x).commissioning = s.commissioning := rfl
@[simp] theorem Part.setSession_ports (s : Part) (n : SessionNo) (x : Session) : (s.setSession n x).ports = s.ports := rfl
@[simp] theorem Part.setSession_mem (s : Part) (n : SessionNo) (x : Session) : (s.setSession n x).mem = s.mem := rfl
@[simp] theorem Part.setSession_freeList (s : Part) (n : SessionNo) (x : Session) : (s.setSession n x).freeList = s.freeList := rfl
@[simp] theorem Part.setSession_blocks (s : Part) (n : SessionNo) (x : Session) : (s.setSession n x).blocks = s.blocks := rfl
@[simp] theorem Part.setSession_tapUse (s : Part) (n : SessionNo) (x : Session) : (s.setSession n x).tapUse = s.tapUse := rfl
@[simp] theorem Part.setSession_waitList (s : Part) (n : SessionNo) (x : Session) : (s.setSession n x).waitList = s.waitList := rfl
@[simp] theorem Part.setSession_walkDue (s : Part) (n : SessionNo) (x : Session) : (s.setSession n x).walkDue = s.walkDue := rfl
@[simp] theorem Part.setSession_queues (s : Part) (n : SessionNo) (x : Session) : (s.setSession n x).queues = s.queues := rfl
@[simp] theorem Part.setSession_lastServed (s : Part) (n : SessionNo) (x : Session) : (s.setSession n x).lastServed = s.lastServed := rfl
@[simp] theorem Part.setSession_curQueue (s : Part) (n : SessionNo) (x : Session) : (s.setSession n x).curQueue = s.curQueue := rfl
@[simp] theorem Part.setSession_framesLeft (s : Part) (n : SessionNo) (x : Session) : (s.setSession n x).framesLeft = s.framesLeft := rfl
@[simp] theorem Part.setSession_transmission (s : Part) (n : SessionNo) (x : Session) : (s.setSession n x).transmission = s.transmission := rfl
@[simp] theorem Part.setSession_lastControl (s : Part) (n : SessionNo) (x : Session) : (s.setSession n x).lastControl = s.lastControl := rfl
@[simp] theorem Part.setSession_chosen (s : Part) (n : SessionNo) (x : Session) : (s.setSession n x).chosen = s.chosen := rfl
@[simp] theorem Part.setSession_notices (s : Part) (n : SessionNo) (x : Session) : (s.setSession n x).notices = s.notices := rfl
@[simp] theorem Part.setSession_noticesLost (s : Part) (n : SessionNo) (x : Session) : (s.setSession n x).noticesLost = s.noticesLost := rfl
@[simp] theorem Part.setSession_imageState (s : Part) (n : SessionNo) (x : Session) : (s.setSession n x).imageState = s.imageState := rfl
@[simp] theorem Part.setSession_flash (s : Part) (n : SessionNo) (x : Session) : (s.setSession n x).flash = s.flash := rfl
@[simp] theorem Part.setSession_save (s : Part) (n : SessionNo) (x : Session) : (s.setSession n x).save = s.save := rfl

@[simp] theorem Part.setTap_slots (s : Part) (t : TapNo) (x : Tap) : (s.setTap t x).slots = s.slots := rfl
@[simp] theorem Part.setTap_formed (s : Part) (t : TapNo) (x : Tap) : (s.setTap t x).formed = s.formed := rfl
@[simp] theorem Part.setTap_peers (s : Part) (t : TapNo) (x : Tap) : (s.setTap t x).peers = s.peers := rfl
@[simp] theorem Part.setTap_triggers (s : Part) (t : TapNo) (x : Tap) : (s.setTap t x).triggers = s.triggers := rfl
@[simp] theorem Part.setTap_system (s : Part) (t : TapNo) (x : Tap) : (s.setTap t x).system = s.system := rfl
@[simp] theorem Part.setTap_commissioningStrap (s : Part) (t : TapNo) (x : Tap) : (s.setTap t x).commissioningStrap = s.commissioningStrap := rfl
@[simp] theorem Part.setTap_addressStraps (s : Part) (t : TapNo) (x : Tap) : (s.setTap t x).addressStraps = s.addressStraps := rfl
@[simp] theorem Part.setTap_commissioning (s : Part) (t : TapNo) (x : Tap) : (s.setTap t x).commissioning = s.commissioning := rfl
@[simp] theorem Part.setTap_ports (s : Part) (t : TapNo) (x : Tap) : (s.setTap t x).ports = s.ports := rfl
@[simp] theorem Part.setTap_sessions (s : Part) (t : TapNo) (x : Tap) : (s.setTap t x).sessions = s.sessions := rfl
@[simp] theorem Part.setTap_mem (s : Part) (t : TapNo) (x : Tap) : (s.setTap t x).mem = s.mem := rfl
@[simp] theorem Part.setTap_freeList (s : Part) (t : TapNo) (x : Tap) : (s.setTap t x).freeList = s.freeList := rfl
@[simp] theorem Part.setTap_blocks (s : Part) (t : TapNo) (x : Tap) : (s.setTap t x).blocks = s.blocks := rfl
@[simp] theorem Part.setTap_tapUse (s : Part) (t : TapNo) (x : Tap) : (s.setTap t x).tapUse = s.tapUse := rfl
@[simp] theorem Part.setTap_waitList (s : Part) (t : TapNo) (x : Tap) : (s.setTap t x).waitList = s.waitList := rfl
@[simp] theorem Part.setTap_walkDue (s : Part) (t : TapNo) (x : Tap) : (s.setTap t x).walkDue = s.walkDue := rfl
@[simp] theorem Part.setTap_queues (s : Part) (t : TapNo) (x : Tap) : (s.setTap t x).queues = s.queues := rfl
@[simp] theorem Part.setTap_lastServed (s : Part) (t : TapNo) (x : Tap) : (s.setTap t x).lastServed = s.lastServed := rfl
@[simp] theorem Part.setTap_curQueue (s : Part) (t : TapNo) (x : Tap) : (s.setTap t x).curQueue = s.curQueue := rfl
@[simp] theorem Part.setTap_framesLeft (s : Part) (t : TapNo) (x : Tap) : (s.setTap t x).framesLeft = s.framesLeft := rfl
@[simp] theorem Part.setTap_transmission (s : Part) (t : TapNo) (x : Tap) : (s.setTap t x).transmission = s.transmission := rfl
@[simp] theorem Part.setTap_lastControl (s : Part) (t : TapNo) (x : Tap) : (s.setTap t x).lastControl = s.lastControl := rfl
@[simp] theorem Part.setTap_chosen (s : Part) (t : TapNo) (x : Tap) : (s.setTap t x).chosen = s.chosen := rfl
@[simp] theorem Part.setTap_notices (s : Part) (t : TapNo) (x : Tap) : (s.setTap t x).notices = s.notices := rfl
@[simp] theorem Part.setTap_noticesLost (s : Part) (t : TapNo) (x : Tap) : (s.setTap t x).noticesLost = s.noticesLost := rfl
@[simp] theorem Part.setTap_imageState (s : Part) (t : TapNo) (x : Tap) : (s.setTap t x).imageState = s.imageState := rfl
@[simp] theorem Part.setTap_flash (s : Part) (t : TapNo) (x : Tap) : (s.setTap t x).flash = s.flash := rfl
@[simp] theorem Part.setTap_save (s : Part) (t : TapNo) (x : Tap) : (s.setTap t x).save = s.save := rfl

@[simp] theorem Part.setQueue_slots (s : Part) (q : QueueNo) (l : List Ref) : (s.setQueue q l).slots = s.slots := rfl
@[simp] theorem Part.setQueue_formed (s : Part) (q : QueueNo) (l : List Ref) : (s.setQueue q l).formed = s.formed := rfl
@[simp] theorem Part.setQueue_peers (s : Part) (q : QueueNo) (l : List Ref) : (s.setQueue q l).peers = s.peers := rfl
@[simp] theorem Part.setQueue_triggers (s : Part) (q : QueueNo) (l : List Ref) : (s.setQueue q l).triggers = s.triggers := rfl
@[simp] theorem Part.setQueue_taps (s : Part) (q : QueueNo) (l : List Ref) : (s.setQueue q l).taps = s.taps := rfl
@[simp] theorem Part.setQueue_system (s : Part) (q : QueueNo) (l : List Ref) : (s.setQueue q l).system = s.system := rfl
@[simp] theorem Part.setQueue_commissioningStrap (s : Part) (q : QueueNo) (l : List Ref) : (s.setQueue q l).commissioningStrap = s.commissioningStrap := rfl
@[simp] theorem Part.setQueue_addressStraps (s : Part) (q : QueueNo) (l : List Ref) : (s.setQueue q l).addressStraps = s.addressStraps := rfl
@[simp] theorem Part.setQueue_commissioning (s : Part) (q : QueueNo) (l : List Ref) : (s.setQueue q l).commissioning = s.commissioning := rfl
@[simp] theorem Part.setQueue_ports (s : Part) (q : QueueNo) (l : List Ref) : (s.setQueue q l).ports = s.ports := rfl
@[simp] theorem Part.setQueue_sessions (s : Part) (q : QueueNo) (l : List Ref) : (s.setQueue q l).sessions = s.sessions := rfl
@[simp] theorem Part.setQueue_mem (s : Part) (q : QueueNo) (l : List Ref) : (s.setQueue q l).mem = s.mem := rfl
@[simp] theorem Part.setQueue_freeList (s : Part) (q : QueueNo) (l : List Ref) : (s.setQueue q l).freeList = s.freeList := rfl
@[simp] theorem Part.setQueue_blocks (s : Part) (q : QueueNo) (l : List Ref) : (s.setQueue q l).blocks = s.blocks := rfl
@[simp] theorem Part.setQueue_tapUse (s : Part) (q : QueueNo) (l : List Ref) : (s.setQueue q l).tapUse = s.tapUse := rfl
@[simp] theorem Part.setQueue_waitList (s : Part) (q : QueueNo) (l : List Ref) : (s.setQueue q l).waitList = s.waitList := rfl
@[simp] theorem Part.setQueue_walkDue (s : Part) (q : QueueNo) (l : List Ref) : (s.setQueue q l).walkDue = s.walkDue := rfl
@[simp] theorem Part.setQueue_lastServed (s : Part) (q : QueueNo) (l : List Ref) : (s.setQueue q l).lastServed = s.lastServed := rfl
@[simp] theorem Part.setQueue_curQueue (s : Part) (q : QueueNo) (l : List Ref) : (s.setQueue q l).curQueue = s.curQueue := rfl
@[simp] theorem Part.setQueue_framesLeft (s : Part) (q : QueueNo) (l : List Ref) : (s.setQueue q l).framesLeft = s.framesLeft := rfl
@[simp] theorem Part.setQueue_transmission (s : Part) (q : QueueNo) (l : List Ref) : (s.setQueue q l).transmission = s.transmission := rfl
@[simp] theorem Part.setQueue_lastControl (s : Part) (q : QueueNo) (l : List Ref) : (s.setQueue q l).lastControl = s.lastControl := rfl
@[simp] theorem Part.setQueue_chosen (s : Part) (q : QueueNo) (l : List Ref) : (s.setQueue q l).chosen = s.chosen := rfl
@[simp] theorem Part.setQueue_notices (s : Part) (q : QueueNo) (l : List Ref) : (s.setQueue q l).notices = s.notices := rfl
@[simp] theorem Part.setQueue_noticesLost (s : Part) (q : QueueNo) (l : List Ref) : (s.setQueue q l).noticesLost = s.noticesLost := rfl
@[simp] theorem Part.setQueue_imageState (s : Part) (q : QueueNo) (l : List Ref) : (s.setQueue q l).imageState = s.imageState := rfl
@[simp] theorem Part.setQueue_flash (s : Part) (q : QueueNo) (l : List Ref) : (s.setQueue q l).flash = s.flash := rfl
@[simp] theorem Part.setQueue_save (s : Part) (q : QueueNo) (l : List Ref) : (s.setQueue q l).save = s.save := rfl

@[simp] theorem Part.setPeer_slots (s : Part) (i : PeerNo) (e : Peer) : (s.setPeer i e).slots = s.slots := rfl
@[simp] theorem Part.setPeer_formed (s : Part) (i : PeerNo) (e : Peer) : (s.setPeer i e).formed = s.formed := rfl
@[simp] theorem Part.setPeer_triggers (s : Part) (i : PeerNo) (e : Peer) : (s.setPeer i e).triggers = s.triggers := rfl
@[simp] theorem Part.setPeer_taps (s : Part) (i : PeerNo) (e : Peer) : (s.setPeer i e).taps = s.taps := rfl
@[simp] theorem Part.setPeer_system (s : Part) (i : PeerNo) (e : Peer) : (s.setPeer i e).system = s.system := rfl
@[simp] theorem Part.setPeer_commissioningStrap (s : Part) (i : PeerNo) (e : Peer) : (s.setPeer i e).commissioningStrap = s.commissioningStrap := rfl
@[simp] theorem Part.setPeer_addressStraps (s : Part) (i : PeerNo) (e : Peer) : (s.setPeer i e).addressStraps = s.addressStraps := rfl
@[simp] theorem Part.setPeer_commissioning (s : Part) (i : PeerNo) (e : Peer) : (s.setPeer i e).commissioning = s.commissioning := rfl
@[simp] theorem Part.setPeer_ports (s : Part) (i : PeerNo) (e : Peer) : (s.setPeer i e).ports = s.ports := rfl
@[simp] theorem Part.setPeer_sessions (s : Part) (i : PeerNo) (e : Peer) : (s.setPeer i e).sessions = s.sessions := rfl
@[simp] theorem Part.setPeer_mem (s : Part) (i : PeerNo) (e : Peer) : (s.setPeer i e).mem = s.mem := rfl
@[simp] theorem Part.setPeer_freeList (s : Part) (i : PeerNo) (e : Peer) : (s.setPeer i e).freeList = s.freeList := rfl
@[simp] theorem Part.setPeer_blocks (s : Part) (i : PeerNo) (e : Peer) : (s.setPeer i e).blocks = s.blocks := rfl
@[simp] theorem Part.setPeer_tapUse (s : Part) (i : PeerNo) (e : Peer) : (s.setPeer i e).tapUse = s.tapUse := rfl
@[simp] theorem Part.setPeer_waitList (s : Part) (i : PeerNo) (e : Peer) : (s.setPeer i e).waitList = s.waitList := rfl
@[simp] theorem Part.setPeer_walkDue (s : Part) (i : PeerNo) (e : Peer) : (s.setPeer i e).walkDue = s.walkDue := rfl
@[simp] theorem Part.setPeer_queues (s : Part) (i : PeerNo) (e : Peer) : (s.setPeer i e).queues = s.queues := rfl
@[simp] theorem Part.setPeer_lastServed (s : Part) (i : PeerNo) (e : Peer) : (s.setPeer i e).lastServed = s.lastServed := rfl
@[simp] theorem Part.setPeer_curQueue (s : Part) (i : PeerNo) (e : Peer) : (s.setPeer i e).curQueue = s.curQueue := rfl
@[simp] theorem Part.setPeer_framesLeft (s : Part) (i : PeerNo) (e : Peer) : (s.setPeer i e).framesLeft = s.framesLeft := rfl
@[simp] theorem Part.setPeer_transmission (s : Part) (i : PeerNo) (e : Peer) : (s.setPeer i e).transmission = s.transmission := rfl
@[simp] theorem Part.setPeer_lastControl (s : Part) (i : PeerNo) (e : Peer) : (s.setPeer i e).lastControl = s.lastControl := rfl
@[simp] theorem Part.setPeer_chosen (s : Part) (i : PeerNo) (e : Peer) : (s.setPeer i e).chosen = s.chosen := rfl
@[simp] theorem Part.setPeer_notices (s : Part) (i : PeerNo) (e : Peer) : (s.setPeer i e).notices = s.notices := rfl
@[simp] theorem Part.setPeer_noticesLost (s : Part) (i : PeerNo) (e : Peer) : (s.setPeer i e).noticesLost = s.noticesLost := rfl
@[simp] theorem Part.setPeer_imageState (s : Part) (i : PeerNo) (e : Peer) : (s.setPeer i e).imageState = s.imageState := rfl
@[simp] theorem Part.setPeer_flash (s : Part) (i : PeerNo) (e : Peer) : (s.setPeer i e).flash = s.flash := rfl
@[simp] theorem Part.setPeer_save (s : Part) (i : PeerNo) (e : Peer) : (s.setPeer i e).save = s.save := rfl

@[simp] theorem Part.setSlot_formed (s : Part) (k : SlotNo) (x : Slot) : (s.setSlot k x).formed = s.formed := rfl
@[simp] theorem Part.setSlot_peers (s : Part) (k : SlotNo) (x : Slot) : (s.setSlot k x).peers = s.peers := rfl
@[simp] theorem Part.setSlot_triggers (s : Part) (k : SlotNo) (x : Slot) : (s.setSlot k x).triggers = s.triggers := rfl
@[simp] theorem Part.setSlot_taps (s : Part) (k : SlotNo) (x : Slot) : (s.setSlot k x).taps = s.taps := rfl
@[simp] theorem Part.setSlot_system (s : Part) (k : SlotNo) (x : Slot) : (s.setSlot k x).system = s.system := rfl
@[simp] theorem Part.setSlot_commissioningStrap (s : Part) (k : SlotNo) (x : Slot) : (s.setSlot k x).commissioningStrap = s.commissioningStrap := rfl
@[simp] theorem Part.setSlot_addressStraps (s : Part) (k : SlotNo) (x : Slot) : (s.setSlot k x).addressStraps = s.addressStraps := rfl
@[simp] theorem Part.setSlot_commissioning (s : Part) (k : SlotNo) (x : Slot) : (s.setSlot k x).commissioning = s.commissioning := rfl
@[simp] theorem Part.setSlot_ports (s : Part) (k : SlotNo) (x : Slot) : (s.setSlot k x).ports = s.ports := rfl
@[simp] theorem Part.setSlot_sessions (s : Part) (k : SlotNo) (x : Slot) : (s.setSlot k x).sessions = s.sessions := rfl
@[simp] theorem Part.setSlot_mem (s : Part) (k : SlotNo) (x : Slot) : (s.setSlot k x).mem = s.mem := rfl
@[simp] theorem Part.setSlot_freeList (s : Part) (k : SlotNo) (x : Slot) : (s.setSlot k x).freeList = s.freeList := rfl
@[simp] theorem Part.setSlot_blocks (s : Part) (k : SlotNo) (x : Slot) : (s.setSlot k x).blocks = s.blocks := rfl
@[simp] theorem Part.setSlot_tapUse (s : Part) (k : SlotNo) (x : Slot) : (s.setSlot k x).tapUse = s.tapUse := rfl
@[simp] theorem Part.setSlot_waitList (s : Part) (k : SlotNo) (x : Slot) : (s.setSlot k x).waitList = s.waitList := rfl
@[simp] theorem Part.setSlot_walkDue (s : Part) (k : SlotNo) (x : Slot) : (s.setSlot k x).walkDue = s.walkDue := rfl
@[simp] theorem Part.setSlot_queues (s : Part) (k : SlotNo) (x : Slot) : (s.setSlot k x).queues = s.queues := rfl
@[simp] theorem Part.setSlot_lastServed (s : Part) (k : SlotNo) (x : Slot) : (s.setSlot k x).lastServed = s.lastServed := rfl
@[simp] theorem Part.setSlot_curQueue (s : Part) (k : SlotNo) (x : Slot) : (s.setSlot k x).curQueue = s.curQueue := rfl
@[simp] theorem Part.setSlot_framesLeft (s : Part) (k : SlotNo) (x : Slot) : (s.setSlot k x).framesLeft = s.framesLeft := rfl
@[simp] theorem Part.setSlot_transmission (s : Part) (k : SlotNo) (x : Slot) : (s.setSlot k x).transmission = s.transmission := rfl
@[simp] theorem Part.setSlot_lastControl (s : Part) (k : SlotNo) (x : Slot) : (s.setSlot k x).lastControl = s.lastControl := rfl
@[simp] theorem Part.setSlot_chosen (s : Part) (k : SlotNo) (x : Slot) : (s.setSlot k x).chosen = s.chosen := rfl
@[simp] theorem Part.setSlot_notices (s : Part) (k : SlotNo) (x : Slot) : (s.setSlot k x).notices = s.notices := rfl
@[simp] theorem Part.setSlot_noticesLost (s : Part) (k : SlotNo) (x : Slot) : (s.setSlot k x).noticesLost = s.noticesLost := rfl
@[simp] theorem Part.setSlot_imageState (s : Part) (k : SlotNo) (x : Slot) : (s.setSlot k x).imageState = s.imageState := rfl
@[simp] theorem Part.setSlot_flash (s : Part) (k : SlotNo) (x : Slot) : (s.setSlot k x).flash = s.flash := rfl
@[simp] theorem Part.setSlot_save (s : Part) (k : SlotNo) (x : Slot) : (s.setSlot k x).save = s.save := rfl

@[simp] theorem Part.modPort_slots (s : Part) (p : PortNo) (f : Port → Port) : (s.modPort p f).slots = s.slots := rfl
@[simp] theorem Part.modPort_formed (s : Part) (p : PortNo) (f : Port → Port) : (s.modPort p f).formed = s.formed := rfl
@[simp] theorem Part.modPort_peers (s : Part) (p : PortNo) (f : Port → Port) : (s.modPort p f).peers = s.peers := rfl
@[simp] theorem Part.modPort_triggers (s : Part) (p : PortNo) (f : Port → Port) : (s.modPort p f).triggers = s.triggers := rfl
@[simp] theorem Part.modPort_taps (s : Part) (p : PortNo) (f : Port → Port) : (s.modPort p f).taps = s.taps := rfl
@[simp] theorem Part.modPort_system (s : Part) (p : PortNo) (f : Port → Port) : (s.modPort p f).system = s.system := rfl
@[simp] theorem Part.modPort_commissioningStrap (s : Part) (p : PortNo) (f : Port → Port) : (s.modPort p f).commissioningStrap = s.commissioningStrap := rfl
@[simp] theorem Part.modPort_addressStraps (s : Part) (p : PortNo) (f : Port → Port) : (s.modPort p f).addressStraps = s.addressStraps := rfl
@[simp] theorem Part.modPort_commissioning (s : Part) (p : PortNo) (f : Port → Port) : (s.modPort p f).commissioning = s.commissioning := rfl
@[simp] theorem Part.modPort_sessions (s : Part) (p : PortNo) (f : Port → Port) : (s.modPort p f).sessions = s.sessions := rfl
@[simp] theorem Part.modPort_mem (s : Part) (p : PortNo) (f : Port → Port) : (s.modPort p f).mem = s.mem := rfl
@[simp] theorem Part.modPort_freeList (s : Part) (p : PortNo) (f : Port → Port) : (s.modPort p f).freeList = s.freeList := rfl
@[simp] theorem Part.modPort_blocks (s : Part) (p : PortNo) (f : Port → Port) : (s.modPort p f).blocks = s.blocks := rfl
@[simp] theorem Part.modPort_tapUse (s : Part) (p : PortNo) (f : Port → Port) : (s.modPort p f).tapUse = s.tapUse := rfl
@[simp] theorem Part.modPort_waitList (s : Part) (p : PortNo) (f : Port → Port) : (s.modPort p f).waitList = s.waitList := rfl
@[simp] theorem Part.modPort_walkDue (s : Part) (p : PortNo) (f : Port → Port) : (s.modPort p f).walkDue = s.walkDue := rfl
@[simp] theorem Part.modPort_queues (s : Part) (p : PortNo) (f : Port → Port) : (s.modPort p f).queues = s.queues := rfl
@[simp] theorem Part.modPort_lastServed (s : Part) (p : PortNo) (f : Port → Port) : (s.modPort p f).lastServed = s.lastServed := rfl
@[simp] theorem Part.modPort_curQueue (s : Part) (p : PortNo) (f : Port → Port) : (s.modPort p f).curQueue = s.curQueue := rfl
@[simp] theorem Part.modPort_framesLeft (s : Part) (p : PortNo) (f : Port → Port) : (s.modPort p f).framesLeft = s.framesLeft := rfl
@[simp] theorem Part.modPort_transmission (s : Part) (p : PortNo) (f : Port → Port) : (s.modPort p f).transmission = s.transmission := rfl
@[simp] theorem Part.modPort_lastControl (s : Part) (p : PortNo) (f : Port → Port) : (s.modPort p f).lastControl = s.lastControl := rfl
@[simp] theorem Part.modPort_chosen (s : Part) (p : PortNo) (f : Port → Port) : (s.modPort p f).chosen = s.chosen := rfl
@[simp] theorem Part.modPort_notices (s : Part) (p : PortNo) (f : Port → Port) : (s.modPort p f).notices = s.notices := rfl
@[simp] theorem Part.modPort_noticesLost (s : Part) (p : PortNo) (f : Port → Port) : (s.modPort p f).noticesLost = s.noticesLost := rfl
@[simp] theorem Part.modPort_imageState (s : Part) (p : PortNo) (f : Port → Port) : (s.modPort p f).imageState = s.imageState := rfl
@[simp] theorem Part.modPort_flash (s : Part) (p : PortNo) (f : Port → Port) : (s.modPort p f).flash = s.flash := rfl
@[simp] theorem Part.modPort_save (s : Part) (p : PortNo) (f : Port → Port) : (s.modPort p f).save = s.save := rfl

@[simp] theorem Part.modSession_slots (s : Part) (n : SessionNo) (f : Session → Session) : (s.modSession n f).slots = s.slots := rfl
@[simp] theorem Part.modSession_formed (s : Part) (n : SessionNo) (f : Session → Session) : (s.modSession n f).formed = s.formed := rfl
@[simp] theorem Part.modSession_peers (s : Part) (n : SessionNo) (f : Session → Session) : (s.modSession n f).peers = s.peers := rfl
@[simp] theorem Part.modSession_triggers (s : Part) (n : SessionNo) (f : Session → Session) : (s.modSession n f).triggers = s.triggers := rfl
@[simp] theorem Part.modSession_taps (s : Part) (n : SessionNo) (f : Session → Session) : (s.modSession n f).taps = s.taps := rfl
@[simp] theorem Part.modSession_system (s : Part) (n : SessionNo) (f : Session → Session) : (s.modSession n f).system = s.system := rfl
@[simp] theorem Part.modSession_commissioningStrap (s : Part) (n : SessionNo) (f : Session → Session) : (s.modSession n f).commissioningStrap = s.commissioningStrap := rfl
@[simp] theorem Part.modSession_addressStraps (s : Part) (n : SessionNo) (f : Session → Session) : (s.modSession n f).addressStraps = s.addressStraps := rfl
@[simp] theorem Part.modSession_commissioning (s : Part) (n : SessionNo) (f : Session → Session) : (s.modSession n f).commissioning = s.commissioning := rfl
@[simp] theorem Part.modSession_ports (s : Part) (n : SessionNo) (f : Session → Session) : (s.modSession n f).ports = s.ports := rfl
@[simp] theorem Part.modSession_mem (s : Part) (n : SessionNo) (f : Session → Session) : (s.modSession n f).mem = s.mem := rfl
@[simp] theorem Part.modSession_freeList (s : Part) (n : SessionNo) (f : Session → Session) : (s.modSession n f).freeList = s.freeList := rfl
@[simp] theorem Part.modSession_blocks (s : Part) (n : SessionNo) (f : Session → Session) : (s.modSession n f).blocks = s.blocks := rfl
@[simp] theorem Part.modSession_tapUse (s : Part) (n : SessionNo) (f : Session → Session) : (s.modSession n f).tapUse = s.tapUse := rfl
@[simp] theorem Part.modSession_waitList (s : Part) (n : SessionNo) (f : Session → Session) : (s.modSession n f).waitList = s.waitList := rfl
@[simp] theorem Part.modSession_walkDue (s : Part) (n : SessionNo) (f : Session → Session) : (s.modSession n f).walkDue = s.walkDue := rfl
@[simp] theorem Part.modSession_queues (s : Part) (n : SessionNo) (f : Session → Session) : (s.modSession n f).queues = s.queues := rfl
@[simp] theorem Part.modSession_lastServed (s : Part) (n : SessionNo) (f : Session → Session) : (s.modSession n f).lastServed = s.lastServed := rfl
@[simp] theorem Part.modSession_curQueue (s : Part) (n : SessionNo) (f : Session → Session) : (s.modSession n f).curQueue = s.curQueue := rfl
@[simp] theorem Part.modSession_framesLeft (s : Part) (n : SessionNo) (f : Session → Session) : (s.modSession n f).framesLeft = s.framesLeft := rfl
@[simp] theorem Part.modSession_transmission (s : Part) (n : SessionNo) (f : Session → Session) : (s.modSession n f).transmission = s.transmission := rfl
@[simp] theorem Part.modSession_lastControl (s : Part) (n : SessionNo) (f : Session → Session) : (s.modSession n f).lastControl = s.lastControl := rfl
@[simp] theorem Part.modSession_chosen (s : Part) (n : SessionNo) (f : Session → Session) : (s.modSession n f).chosen = s.chosen := rfl
@[simp] theorem Part.modSession_notices (s : Part) (n : SessionNo) (f : Session → Session) : (s.modSession n f).notices = s.notices := rfl
@[simp] theorem Part.modSession_noticesLost (s : Part) (n : SessionNo) (f : Session → Session) : (s.modSession n f).noticesLost = s.noticesLost := rfl
@[simp] theorem Part.modSession_imageState (s : Part) (n : SessionNo) (f : Session → Session) : (s.modSession n f).imageState = s.imageState := rfl
@[simp] theorem Part.modSession_flash (s : Part) (n : SessionNo) (f : Session → Session) : (s.modSession n f).flash = s.flash := rfl
@[simp] theorem Part.modSession_save (s : Part) (n : SessionNo) (f : Session → Session) : (s.modSession n f).save = s.save := rfl

@[simp] theorem Part.modTap_slots (s : Part) (t : TapNo) (f : Tap → Tap) : (s.modTap t f).slots = s.slots := rfl
@[simp] theorem Part.modTap_formed (s : Part) (t : TapNo) (f : Tap → Tap) : (s.modTap t f).formed = s.formed := rfl
@[simp] theorem Part.modTap_peers (s : Part) (t : TapNo) (f : Tap → Tap) : (s.modTap t f).peers = s.peers := rfl
@[simp] theorem Part.modTap_triggers (s : Part) (t : TapNo) (f : Tap → Tap) : (s.modTap t f).triggers = s.triggers := rfl
@[simp] theorem Part.modTap_system (s : Part) (t : TapNo) (f : Tap → Tap) : (s.modTap t f).system = s.system := rfl
@[simp] theorem Part.modTap_commissioningStrap (s : Part) (t : TapNo) (f : Tap → Tap) : (s.modTap t f).commissioningStrap = s.commissioningStrap := rfl
@[simp] theorem Part.modTap_addressStraps (s : Part) (t : TapNo) (f : Tap → Tap) : (s.modTap t f).addressStraps = s.addressStraps := rfl
@[simp] theorem Part.modTap_commissioning (s : Part) (t : TapNo) (f : Tap → Tap) : (s.modTap t f).commissioning = s.commissioning := rfl
@[simp] theorem Part.modTap_ports (s : Part) (t : TapNo) (f : Tap → Tap) : (s.modTap t f).ports = s.ports := rfl
@[simp] theorem Part.modTap_sessions (s : Part) (t : TapNo) (f : Tap → Tap) : (s.modTap t f).sessions = s.sessions := rfl
@[simp] theorem Part.modTap_mem (s : Part) (t : TapNo) (f : Tap → Tap) : (s.modTap t f).mem = s.mem := rfl
@[simp] theorem Part.modTap_freeList (s : Part) (t : TapNo) (f : Tap → Tap) : (s.modTap t f).freeList = s.freeList := rfl
@[simp] theorem Part.modTap_blocks (s : Part) (t : TapNo) (f : Tap → Tap) : (s.modTap t f).blocks = s.blocks := rfl
@[simp] theorem Part.modTap_tapUse (s : Part) (t : TapNo) (f : Tap → Tap) : (s.modTap t f).tapUse = s.tapUse := rfl
@[simp] theorem Part.modTap_waitList (s : Part) (t : TapNo) (f : Tap → Tap) : (s.modTap t f).waitList = s.waitList := rfl
@[simp] theorem Part.modTap_walkDue (s : Part) (t : TapNo) (f : Tap → Tap) : (s.modTap t f).walkDue = s.walkDue := rfl
@[simp] theorem Part.modTap_queues (s : Part) (t : TapNo) (f : Tap → Tap) : (s.modTap t f).queues = s.queues := rfl
@[simp] theorem Part.modTap_lastServed (s : Part) (t : TapNo) (f : Tap → Tap) : (s.modTap t f).lastServed = s.lastServed := rfl
@[simp] theorem Part.modTap_curQueue (s : Part) (t : TapNo) (f : Tap → Tap) : (s.modTap t f).curQueue = s.curQueue := rfl
@[simp] theorem Part.modTap_framesLeft (s : Part) (t : TapNo) (f : Tap → Tap) : (s.modTap t f).framesLeft = s.framesLeft := rfl
@[simp] theorem Part.modTap_transmission (s : Part) (t : TapNo) (f : Tap → Tap) : (s.modTap t f).transmission = s.transmission := rfl
@[simp] theorem Part.modTap_lastControl (s : Part) (t : TapNo) (f : Tap → Tap) : (s.modTap t f).lastControl = s.lastControl := rfl
@[simp] theorem Part.modTap_chosen (s : Part) (t : TapNo) (f : Tap → Tap) : (s.modTap t f).chosen = s.chosen := rfl
@[simp] theorem Part.modTap_notices (s : Part) (t : TapNo) (f : Tap → Tap) : (s.modTap t f).notices = s.notices := rfl
@[simp] theorem Part.modTap_noticesLost (s : Part) (t : TapNo) (f : Tap → Tap) : (s.modTap t f).noticesLost = s.noticesLost := rfl
@[simp] theorem Part.modTap_imageState (s : Part) (t : TapNo) (f : Tap → Tap) : (s.modTap t f).imageState = s.imageState := rfl
@[simp] theorem Part.modTap_flash (s : Part) (t : TapNo) (f : Tap → Tap) : (s.modTap t f).flash = s.flash := rfl
@[simp] theorem Part.modTap_save (s : Part) (t : TapNo) (f : Tap → Tap) : (s.modTap t f).save = s.save := rfl

@[simp] theorem Part.modBlock_slots (s : Part) (id : Nat) (f : Block → Block) : (s.modBlock id f).slots = s.slots := rfl
@[simp] theorem Part.modBlock_formed (s : Part) (id : Nat) (f : Block → Block) : (s.modBlock id f).formed = s.formed := rfl
@[simp] theorem Part.modBlock_peers (s : Part) (id : Nat) (f : Block → Block) : (s.modBlock id f).peers = s.peers := rfl
@[simp] theorem Part.modBlock_triggers (s : Part) (id : Nat) (f : Block → Block) : (s.modBlock id f).triggers = s.triggers := rfl
@[simp] theorem Part.modBlock_taps (s : Part) (id : Nat) (f : Block → Block) : (s.modBlock id f).taps = s.taps := rfl
@[simp] theorem Part.modBlock_system (s : Part) (id : Nat) (f : Block → Block) : (s.modBlock id f).system = s.system := rfl
@[simp] theorem Part.modBlock_commissioningStrap (s : Part) (id : Nat) (f : Block → Block) : (s.modBlock id f).commissioningStrap = s.commissioningStrap := rfl
@[simp] theorem Part.modBlock_addressStraps (s : Part) (id : Nat) (f : Block → Block) : (s.modBlock id f).addressStraps = s.addressStraps := rfl
@[simp] theorem Part.modBlock_commissioning (s : Part) (id : Nat) (f : Block → Block) : (s.modBlock id f).commissioning = s.commissioning := rfl
@[simp] theorem Part.modBlock_ports (s : Part) (id : Nat) (f : Block → Block) : (s.modBlock id f).ports = s.ports := rfl
@[simp] theorem Part.modBlock_sessions (s : Part) (id : Nat) (f : Block → Block) : (s.modBlock id f).sessions = s.sessions := rfl
@[simp] theorem Part.modBlock_mem (s : Part) (id : Nat) (f : Block → Block) : (s.modBlock id f).mem = s.mem := rfl
@[simp] theorem Part.modBlock_freeList (s : Part) (id : Nat) (f : Block → Block) : (s.modBlock id f).freeList = s.freeList := rfl
@[simp] theorem Part.modBlock_tapUse (s : Part) (id : Nat) (f : Block → Block) : (s.modBlock id f).tapUse = s.tapUse := rfl
@[simp] theorem Part.modBlock_waitList (s : Part) (id : Nat) (f : Block → Block) : (s.modBlock id f).waitList = s.waitList := rfl
@[simp] theorem Part.modBlock_walkDue (s : Part) (id : Nat) (f : Block → Block) : (s.modBlock id f).walkDue = s.walkDue := rfl
@[simp] theorem Part.modBlock_queues (s : Part) (id : Nat) (f : Block → Block) : (s.modBlock id f).queues = s.queues := rfl
@[simp] theorem Part.modBlock_lastServed (s : Part) (id : Nat) (f : Block → Block) : (s.modBlock id f).lastServed = s.lastServed := rfl
@[simp] theorem Part.modBlock_curQueue (s : Part) (id : Nat) (f : Block → Block) : (s.modBlock id f).curQueue = s.curQueue := rfl
@[simp] theorem Part.modBlock_framesLeft (s : Part) (id : Nat) (f : Block → Block) : (s.modBlock id f).framesLeft = s.framesLeft := rfl
@[simp] theorem Part.modBlock_transmission (s : Part) (id : Nat) (f : Block → Block) : (s.modBlock id f).transmission = s.transmission := rfl
@[simp] theorem Part.modBlock_lastControl (s : Part) (id : Nat) (f : Block → Block) : (s.modBlock id f).lastControl = s.lastControl := rfl
@[simp] theorem Part.modBlock_chosen (s : Part) (id : Nat) (f : Block → Block) : (s.modBlock id f).chosen = s.chosen := rfl
@[simp] theorem Part.modBlock_notices (s : Part) (id : Nat) (f : Block → Block) : (s.modBlock id f).notices = s.notices := rfl
@[simp] theorem Part.modBlock_noticesLost (s : Part) (id : Nat) (f : Block → Block) : (s.modBlock id f).noticesLost = s.noticesLost := rfl
@[simp] theorem Part.modBlock_imageState (s : Part) (id : Nat) (f : Block → Block) : (s.modBlock id f).imageState = s.imageState := rfl
@[simp] theorem Part.modBlock_flash (s : Part) (id : Nat) (f : Block → Block) : (s.modBlock id f).flash = s.flash := rfl
@[simp] theorem Part.modBlock_save (s : Part) (id : Nat) (f : Block → Block) : (s.modBlock id f).save = s.save := rfl

theorem Part.port_setPort (s : Part) (p p' : PortNo) (x : Port) :
    (s.setPort p x).port p' = if p = p' then x else s.port p' := by
  simp [Part.port, Part.setPort, Vector.getElem_set, Fin.ext_iff]
@[simp] theorem Part.port_setPort_self (s : Part) (p : PortNo) (x : Port) : (s.setPort p x).port p = x := by
  simp [Part.port_setPort]
theorem Part.port_setPort_ne (s : Part) (p p' : PortNo) (x : Port) (h : p ≠ p') :
    (s.setPort p x).port p' = s.port p' := by
  simp [Part.port_setPort, h]
theorem Part.port_modPort (s : Part) (p p' : PortNo) (f : Port → Port) :
    (s.modPort p f).port p' = if p = p' then f (s.port p) else s.port p' := Part.port_setPort s p p' _
@[simp] theorem Part.port_modPort_self (s : Part) (p : PortNo) (f : Port → Port) : (s.modPort p f).port p = f (s.port p) := by
  simp [Part.port_modPort]
theorem Part.port_modPort_ne (s : Part) (p p' : PortNo) (f : Port → Port) (h : p ≠ p') :
    (s.modPort p f).port p' = s.port p' := by
  simp [Part.port_modPort, h]

@[simp] theorem Part.setSession_port (s : Part) (n : SessionNo) (x : Session) (p' : PortNo) : (s.setSession n x).port p' = s.port p' := rfl
@[simp] theorem Part.setTap_port (s : Part) (t : TapNo) (x : Tap) (p' : PortNo) : (s.setTap t x).port p' = s.port p' := rfl
@[simp] theorem Part.setQueue_port (s : Part) (q : QueueNo) (l : List Ref) (p' : PortNo) : (s.setQueue q l).port p' = s.port p' := rfl
@[simp] theorem Part.setPeer_port (s : Part) (i : PeerNo) (e : Peer) (p' : PortNo) : (s.setPeer i e).port p' = s.port p' := rfl
@[simp] theorem Part.setSlot_port (s : Part) (k : SlotNo) (x : Slot) (p' : PortNo) : (s.setSlot k x).port p' = s.port p' := rfl
@[simp] theorem Part.modSession_port (s : Part) (n : SessionNo) (f : Session → Session) (p' : PortNo) : (s.modSession n f).port p' = s.port p' := rfl
@[simp] theorem Part.modTap_port (s : Part) (t : TapNo) (f : Tap → Tap) (p' : PortNo) : (s.modTap t f).port p' = s.port p' := rfl
@[simp] theorem Part.modBlock_port (s : Part) (id : Nat) (f : Block → Block) (p' : PortNo) : (s.modBlock id f).port p' = s.port p' := rfl

theorem Part.session_setSession (s : Part) (n n' : SessionNo) (x : Session) :
    (s.setSession n x).session n' = if n = n' then x else s.session n' := by
  simp [Part.session, Part.setSession, Vector.getElem_set, Fin.ext_iff]
@[simp] theorem Part.session_setSession_self (s : Part) (n : SessionNo) (x : Session) : (s.setSession n x).session n = x := by
  simp [Part.session_setSession]
theorem Part.session_setSession_ne (s : Part) (n n' : SessionNo) (x : Session) (h : n ≠ n') :
    (s.setSession n x).session n' = s.session n' := by
  simp [Part.session_setSession, h]
theorem Part.session_modSession (s : Part) (n n' : SessionNo) (f : Session → Session) :
    (s.modSession n f).session n' = if n = n' then f (s.session n) else s.session n' := Part.session_setSession s n n' _
@[simp] theorem Part.session_modSession_self (s : Part) (n : SessionNo) (f : Session → Session) : (s.modSession n f).session n = f (s.session n) := by
  simp [Part.session_modSession]
theorem Part.session_modSession_ne (s : Part) (n n' : SessionNo) (f : Session → Session) (h : n ≠ n') :
    (s.modSession n f).session n' = s.session n' := by
  simp [Part.session_modSession, h]

@[simp] theorem Part.setPort_session (s : Part) (p : PortNo) (x : Port) (n' : SessionNo) : (s.setPort p x).session n' = s.session n' := rfl
@[simp] theorem Part.setTap_session (s : Part) (t : TapNo) (x : Tap) (n' : SessionNo) : (s.setTap t x).session n' = s.session n' := rfl
@[simp] theorem Part.setQueue_session (s : Part) (q : QueueNo) (l : List Ref) (n' : SessionNo) : (s.setQueue q l).session n' = s.session n' := rfl
@[simp] theorem Part.setPeer_session (s : Part) (i : PeerNo) (e : Peer) (n' : SessionNo) : (s.setPeer i e).session n' = s.session n' := rfl
@[simp] theorem Part.setSlot_session (s : Part) (k : SlotNo) (x : Slot) (n' : SessionNo) : (s.setSlot k x).session n' = s.session n' := rfl
@[simp] theorem Part.modPort_session (s : Part) (p : PortNo) (f : Port → Port) (n' : SessionNo) : (s.modPort p f).session n' = s.session n' := rfl
@[simp] theorem Part.modTap_session (s : Part) (t : TapNo) (f : Tap → Tap) (n' : SessionNo) : (s.modTap t f).session n' = s.session n' := rfl
@[simp] theorem Part.modBlock_session (s : Part) (id : Nat) (f : Block → Block) (n' : SessionNo) : (s.modBlock id f).session n' = s.session n' := rfl

theorem Part.tap_setTap (s : Part) (t t' : TapNo) (x : Tap) :
    (s.setTap t x).tap t' = if t = t' then x else s.tap t' := by
  simp [Part.tap, Part.setTap, Vector.getElem_set, Fin.ext_iff]
@[simp] theorem Part.tap_setTap_self (s : Part) (t : TapNo) (x : Tap) : (s.setTap t x).tap t = x := by
  simp [Part.tap_setTap]
theorem Part.tap_setTap_ne (s : Part) (t t' : TapNo) (x : Tap) (h : t ≠ t') :
    (s.setTap t x).tap t' = s.tap t' := by
  simp [Part.tap_setTap, h]
theorem Part.tap_modTap (s : Part) (t t' : TapNo) (f : Tap → Tap) :
    (s.modTap t f).tap t' = if t = t' then f (s.tap t) else s.tap t' := Part.tap_setTap s t t' _
@[simp] theorem Part.tap_modTap_self (s : Part) (t : TapNo) (f : Tap → Tap) : (s.modTap t f).tap t = f (s.tap t) := by
  simp [Part.tap_modTap]
theorem Part.tap_modTap_ne (s : Part) (t t' : TapNo) (f : Tap → Tap) (h : t ≠ t') :
    (s.modTap t f).tap t' = s.tap t' := by
  simp [Part.tap_modTap, h]

@[simp] theorem Part.setPort_tap (s : Part) (p : PortNo) (x : Port) (t' : TapNo) : (s.setPort p x).tap t' = s.tap t' := rfl
@[simp] theorem Part.setSession_tap (s : Part) (n : SessionNo) (x : Session) (t' : TapNo) : (s.setSession n x).tap t' = s.tap t' := rfl
@[simp] theorem Part.setQueue_tap (s : Part) (q : QueueNo) (l : List Ref) (t' : TapNo) : (s.setQueue q l).tap t' = s.tap t' := rfl
@[simp] theorem Part.setPeer_tap (s : Part) (i : PeerNo) (e : Peer) (t' : TapNo) : (s.setPeer i e).tap t' = s.tap t' := rfl
@[simp] theorem Part.setSlot_tap (s : Part) (k : SlotNo) (x : Slot) (t' : TapNo) : (s.setSlot k x).tap t' = s.tap t' := rfl
@[simp] theorem Part.modPort_tap (s : Part) (p : PortNo) (f : Port → Port) (t' : TapNo) : (s.modPort p f).tap t' = s.tap t' := rfl
@[simp] theorem Part.modSession_tap (s : Part) (n : SessionNo) (f : Session → Session) (t' : TapNo) : (s.modSession n f).tap t' = s.tap t' := rfl
@[simp] theorem Part.modBlock_tap (s : Part) (id : Nat) (f : Block → Block) (t' : TapNo) : (s.modBlock id f).tap t' = s.tap t' := rfl

theorem Part.queue_setQueue (s : Part) (q q' : QueueNo) (x : List Ref) :
    (s.setQueue q x).queue q' = if q = q' then x else s.queue q' := by
  simp [Part.queue, Part.setQueue, Vector.getElem_set, Fin.ext_iff]
@[simp] theorem Part.queue_setQueue_self (s : Part) (q : QueueNo) (x : List Ref) : (s.setQueue q x).queue q = x := by
  simp [Part.queue_setQueue]
theorem Part.queue_setQueue_ne (s : Part) (q q' : QueueNo) (x : List Ref) (h : q ≠ q') :
    (s.setQueue q x).queue q' = s.queue q' := by
  simp [Part.queue_setQueue, h]

@[simp] theorem Part.setPort_queue (s : Part) (p : PortNo) (x : Port) (q' : QueueNo) : (s.setPort p x).queue q' = s.queue q' := rfl
@[simp] theorem Part.setSession_queue (s : Part) (n : SessionNo) (x : Session) (q' : QueueNo) : (s.setSession n x).queue q' = s.queue q' := rfl
@[simp] theorem Part.setTap_queue (s : Part) (t : TapNo) (x : Tap) (q' : QueueNo) : (s.setTap t x).queue q' = s.queue q' := rfl
@[simp] theorem Part.setPeer_queue (s : Part) (i : PeerNo) (e : Peer) (q' : QueueNo) : (s.setPeer i e).queue q' = s.queue q' := rfl
@[simp] theorem Part.setSlot_queue (s : Part) (k : SlotNo) (x : Slot) (q' : QueueNo) : (s.setSlot k x).queue q' = s.queue q' := rfl
@[simp] theorem Part.modPort_queue (s : Part) (p : PortNo) (f : Port → Port) (q' : QueueNo) : (s.modPort p f).queue q' = s.queue q' := rfl
@[simp] theorem Part.modSession_queue (s : Part) (n : SessionNo) (f : Session → Session) (q' : QueueNo) : (s.modSession n f).queue q' = s.queue q' := rfl
@[simp] theorem Part.modTap_queue (s : Part) (t : TapNo) (f : Tap → Tap) (q' : QueueNo) : (s.modTap t f).queue q' = s.queue q' := rfl
@[simp] theorem Part.modBlock_queue (s : Part) (id : Nat) (f : Block → Block) (q' : QueueNo) : (s.modBlock id f).queue q' = s.queue q' := rfl

theorem Part.peer_setPeer (s : Part) (i i' : PeerNo) (x : Peer) :
    (s.setPeer i x).peer i' = if i = i' then x else s.peer i' := by
  simp [Part.peer, Part.setPeer, Vector.getElem_set, Fin.ext_iff]
@[simp] theorem Part.peer_setPeer_self (s : Part) (i : PeerNo) (x : Peer) : (s.setPeer i x).peer i = x := by
  simp [Part.peer_setPeer]
theorem Part.peer_setPeer_ne (s : Part) (i i' : PeerNo) (x : Peer) (h : i ≠ i') :
    (s.setPeer i x).peer i' = s.peer i' := by
  simp [Part.peer_setPeer, h]

@[simp] theorem Part.setPort_peer (s : Part) (p : PortNo) (x : Port) (i' : PeerNo) : (s.setPort p x).peer i' = s.peer i' := rfl
@[simp] theorem Part.setSession_peer (s : Part) (n : SessionNo) (x : Session) (i' : PeerNo) : (s.setSession n x).peer i' = s.peer i' := rfl
@[simp] theorem Part.setTap_peer (s : Part) (t : TapNo) (x : Tap) (i' : PeerNo) : (s.setTap t x).peer i' = s.peer i' := rfl
@[simp] theorem Part.setQueue_peer (s : Part) (q : QueueNo) (l : List Ref) (i' : PeerNo) : (s.setQueue q l).peer i' = s.peer i' := rfl
@[simp] theorem Part.setSlot_peer (s : Part) (k : SlotNo) (x : Slot) (i' : PeerNo) : (s.setSlot k x).peer i' = s.peer i' := rfl
@[simp] theorem Part.modPort_peer (s : Part) (p : PortNo) (f : Port → Port) (i' : PeerNo) : (s.modPort p f).peer i' = s.peer i' := rfl
@[simp] theorem Part.modSession_peer (s : Part) (n : SessionNo) (f : Session → Session) (i' : PeerNo) : (s.modSession n f).peer i' = s.peer i' := rfl
@[simp] theorem Part.modTap_peer (s : Part) (t : TapNo) (f : Tap → Tap) (i' : PeerNo) : (s.modTap t f).peer i' = s.peer i' := rfl
@[simp] theorem Part.modBlock_peer (s : Part) (id : Nat) (f : Block → Block) (i' : PeerNo) : (s.modBlock id f).peer i' = s.peer i' := rfl

theorem Part.slot_setSlot (s : Part) (k k' : SlotNo) (x : Slot) :
    (s.setSlot k x).slot k' = if k = k' then x else s.slot k' := by
  simp [Part.slot, Part.setSlot, Vector.getElem_set, Fin.ext_iff]
@[simp] theorem Part.slot_setSlot_self (s : Part) (k : SlotNo) (x : Slot) : (s.setSlot k x).slot k = x := by
  simp [Part.slot_setSlot]
theorem Part.slot_setSlot_ne (s : Part) (k k' : SlotNo) (x : Slot) (h : k ≠ k') :
    (s.setSlot k x).slot k' = s.slot k' := by
  simp [Part.slot_setSlot, h]

@[simp] theorem Part.setPort_slot (s : Part) (p : PortNo) (x : Port) (k' : SlotNo) : (s.setPort p x).slot k' = s.slot k' := rfl
@[simp] theorem Part.setSession_slot (s : Part) (n : SessionNo) (x : Session) (k' : SlotNo) : (s.setSession n x).slot k' = s.slot k' := rfl
@[simp] theorem Part.setTap_slot (s : Part) (t : TapNo) (x : Tap) (k' : SlotNo) : (s.setTap t x).slot k' = s.slot k' := rfl
@[simp] theorem Part.setQueue_slot (s : Part) (q : QueueNo) (l : List Ref) (k' : SlotNo) : (s.setQueue q l).slot k' = s.slot k' := rfl
@[simp] theorem Part.setPeer_slot (s : Part) (i : PeerNo) (e : Peer) (k' : SlotNo) : (s.setPeer i e).slot k' = s.slot k' := rfl
@[simp] theorem Part.modPort_slot (s : Part) (p : PortNo) (f : Port → Port) (k' : SlotNo) : (s.modPort p f).slot k' = s.slot k' := rfl
@[simp] theorem Part.modSession_slot (s : Part) (n : SessionNo) (f : Session → Session) (k' : SlotNo) : (s.modSession n f).slot k' = s.slot k' := rfl
@[simp] theorem Part.modTap_slot (s : Part) (t : TapNo) (f : Tap → Tap) (k' : SlotNo) : (s.modTap t f).slot k' = s.slot k' := rfl
@[simp] theorem Part.modBlock_slot (s : Part) (id : Nat) (f : Block → Block) (k' : SlotNo) : (s.modBlock id f).slot k' = s.slot k' := rfl

/-- A table entry after a function was applied to every entry. -/
theorem mapTable_get {α β : Type} {n : Nat} (v : Vector α n) (f : α → β) (i : Fin n) : (mapTable v f)[i] = f v[i] := by
  simp [mapTable]

end Sys2Proof.Machine
end

