-- ==== Sys2Proof/Laws/Frames.lean ====
section
/-!
SUPPORT. What each shared operation can change, said once per operation as a frame: Quiet (conditions, pause, heads), StoreFrame
(cells, blocks, byte placement), QueueFrame (delivery queues too), SessionFrame (sessions, replies, transmission too) and Kept
(everything that no cascade changes).
-/
namespace Sys2Proof.Machine

/-- What no store operation changes of a port; its Transmit FIFO may only lose bytes to the shift register. -/
structure PortKept (x y : Port) : Prop where
  profile : y.profile = x.profile
  portState : y.portState = x.portState
  epoch : y.epoch = x.epoch
  keyOffset : y.keyOffset = x.keyOffset
  pendingLoad : y.pendingLoad = x.pendingLoad
  reconfigTimer : y.reconfigTimer = x.reconfigTimer
  dsrDebounced : y.dsrDebounced = x.dsrDebounced
  debounceTimer : y.debounceTimer = x.debounceTimer
  pins : y.pins = x.pins
  holdTimer : y.holdTimer = x.holdTimer
  staging : y.staging = x.staging
  signal : y.signal = x.signal
  lastSnap : y.lastSnap = x.lastSnap
  consoleStopped : y.engine.consoleStopped = x.engine.consoleStopped
  receiver : y.engine.receiver = x.engine.receiver
  fifo : y.engine.fifo.length ≤ x.engine.fifo.length
  head : y.headHold = x.headHold ∨ (x.headHold = .held ∧ y.headHold = .retry)

theorem PortKept.refl (x : Port) : PortKept x x := by constructor <;> first | rfl | exact Or.inl rfl

theorem PortKept.trans {x y z : Port} (a : PortKept x y) (b : PortKept y z) : PortKept x z := by
  constructor
  case fifo => exact b.fifo.trans a.fifo
  case head =>
    rcases a.head with h | ⟨h, h'⟩
    · rcases b.head with g | ⟨g, g'⟩
      · exact .inl (g.trans h)
      · exact .inr ⟨h ▸ g, g'⟩
    · rcases b.head with g | ⟨g, g'⟩
      · exact .inr ⟨h, g.trans h'⟩
      · rw [h'] at g; cases g
  all_goals first
    | exact b.profile.trans a.profile | exact b.portState.trans a.portState | exact b.epoch.trans a.epoch
    | exact b.keyOffset.trans a.keyOffset | exact b.pendingLoad.trans a.pendingLoad
    | exact b.reconfigTimer.trans a.reconfigTimer | exact b.dsrDebounced.trans a.dsrDebounced
    | exact b.debounceTimer.trans a.debounceTimer | exact b.pins.trans a.pins | exact b.holdTimer.trans a.holdTimer
    | exact b.staging.trans a.staging | exact b.signal.trans a.signal | exact b.lastSnap.trans a.lastSnap
    | exact b.consoleStopped.trans a.consoleStopped | exact b.receiver.trans a.receiver

/-! ### The frames -/

/-- What no shared operation changes, whatever its cascade. -/
structure Kept (s t : Part) : Prop where
  peers : t.peers = s.peers
  triggers : t.triggers = s.triggers
  commissioningStrap : t.commissioningStrap = s.commissioningStrap
  addressStraps : t.addressStraps = s.addressStraps
  lastServed : t.lastServed = s.lastServed
  curQueue : t.curQueue = s.curQueue
  framesLeft : t.framesLeft = s.framesLeft
  lastControl : t.lastControl = s.lastControl
  imageState : t.imageState = s.imageState
  flash : t.flash = s.flash
  save : t.save = s.save
  burst : t.system.burst = s.system.burst
  mem : Memory.wf s.mem → Memory.wf t.mem
  notices : s.notices.length ≤ Config.noticePlaces → t.notices.length ≤ Config.noticePlaces
  epoch : ∀ p, (t.port p).epoch = (s.port p).epoch
  fifo : ∀ p, (t.port p).engine.fifo.length ≤ (s.port p).engine.fifo.length

/-- What operations on sessions and ports change no further than: not the taps, the settings or the commissioning state. -/
structure SessionFrame (s t : Part) : Prop extends Kept s t where
  taps : t.taps = s.taps
  system : t.system = s.system
  commissioning : t.commissioning = s.commissioning

/-- What clearing a queue changes no further than. -/
structure QueueFrame (s t : Part) : Prop extends SessionFrame s t where
  slots : t.slots = s.slots
  formed : t.formed = s.formed
  sessions : t.sessions = s.sessions
  transmission : t.transmission = s.transmission
  chosen : t.chosen = s.chosen
  port : ∀ p, PortKept (s.port p) (t.port p)

/-- What the Cell Store and Block Assembly change no further than. -/
structure StoreFrame (s t : Part) : Prop extends QueueFrame s t where
  queues : t.queues = s.queues

/-- What conditions, the pause and the heads change no further than. -/
structure Quiet (s t : Part) : Prop extends StoreFrame s t where
  memory : t.mem = s.mem
  freeList : t.freeList = s.freeList
  blocks : t.blocks = s.blocks
  tapUse : t.tapUse = s.tapUse
  waitList : t.waitList = s.waitList
  walkDue : t.walkDue = s.walkDue

theorem Kept.refl (s : Part) : Kept s s := by constructor <;> first | rfl | exact id | exact fun _ => rfl | exact fun _ => le_refl _
theorem SessionFrame.refl (s : Part) : SessionFrame s s := { Kept.refl s with taps := rfl, system := rfl, commissioning := rfl }
theorem QueueFrame.refl (s : Part) : QueueFrame s s :=
  { SessionFrame.refl s with slots := rfl, formed := rfl, sessions := rfl, transmission := rfl, chosen := rfl,
                             port := fun _ => PortKept.refl _ }
theorem StoreFrame.refl (s : Part) : StoreFrame s s := { QueueFrame.refl s with queues := rfl }
theorem Quiet.refl (s : Part) : Quiet s s :=
  { StoreFrame.refl s with memory := rfl, freeList := rfl, blocks := rfl, tapUse := rfl, waitList := rfl, walkDue := rfl }

theorem Kept.trans {s t u : Part} (a : Kept s t) (b : Kept t u) : Kept s u where
  peers := b.peers.trans a.peers
  triggers := b.triggers.trans a.triggers
  commissioningStrap := b.commissioningStrap.trans a.commissioningStrap
  addressStraps := b.addressStraps.trans a.addressStraps
  lastServed := b.lastServed.trans a.lastServed
  curQueue := b.curQueue.trans a.curQueue
  framesLeft := b.framesLeft.trans a.framesLeft
  lastControl := b.lastControl.trans a.lastControl
  imageState := b.imageState.trans a.imageState
  flash := b.flash.trans a.flash
  save := b.save.trans a.save
  burst := b.burst.trans a.burst
  mem h := b.mem (a.mem h)
  notices h := b.notices (a.notices h)
  epoch p := (b.epoch p).trans (a.epoch p)
  fifo p := (b.fifo p).trans (a.fifo p)

theorem SessionFrame.trans {s t u : Part} (a : SessionFrame s t) (b : SessionFrame t u) : SessionFrame s u :=
  { a.toKept.trans b.toKept with
    taps := b.taps.trans a.taps, system := b.system.trans a.system
    commissioning := b.commissioning.trans a.commissioning }

theorem QueueFrame.trans {s t u : Part} (a : QueueFrame s t) (b : QueueFrame t u) : QueueFrame s u :=
  { a.toSessionFrame.trans b.toSessionFrame with
    slots := b.slots.trans a.slots, formed := b.formed.trans a.formed, sessions := b.sessions.trans a.sessions
    transmission := b.transmission.trans a.transmission, chosen := b.chosen.trans a.chosen
    port := fun p => (a.port p).trans (b.port p) }

theorem StoreFrame.trans {s t u : Part} (a : StoreFrame s t) (b : StoreFrame t u) : StoreFrame s u :=
  { a.toQueueFrame.trans b.toQueueFrame with queues := b.queues.trans a.queues }

theorem Quiet.trans {s t u : Part} (a : Quiet s t) (b : Quiet t u) : Quiet s u :=
  { a.toStoreFrame.trans b.toStoreFrame with
    memory := b.memory.trans a.memory, freeList := b.freeList.trans a.freeList, blocks := b.blocks.trans a.blocks
    tapUse := b.tapUse.trans a.tapUse, waitList := b.waitList.trans a.waitList, walkDue := b.walkDue.trans a.walkDue }

theorem QueueFrame.session {s t : Part} (h : QueueFrame s t) (n : SessionNo) : t.session n = s.session n := by
  simp [Part.session, h.sessions]
theorem QueueFrame.slot {s t : Part} (h : QueueFrame s t) (k : SlotNo) : t.slot k = s.slot k := by simp [Part.slot, h.slots]
theorem QueueFrame.owns {s t : Part} (h : QueueFrame s t) (n : SessionNo) (p : PortNo) : t.owns n p = s.owns n p := by
  simp [Part.owns, h.session]
theorem QueueFrame.ownerOf {s t : Part} (h : QueueFrame s t) (p : PortNo) : t.ownerOf p = s.ownerOf p := by
  simp [Part.ownerOf, h.owns]
theorem Kept.peer {s t : Part} (h : Kept s t) (i : PeerNo) : t.peer i = s.peer i := by simp [Part.peer, h.peers]
theorem SessionFrame.tap {s t : Part} (h : SessionFrame s t) (k : TapNo) : t.tap k = s.tap k := by simp [Part.tap, h.taps]
theorem StoreFrame.queue {s t : Part} (h : StoreFrame s t) (q : QueueNo) : t.queue q = s.queue q := by simp [Part.queue, h.queues]
theorem Quiet.block {s t : Part} (h : Quiet s t) (id : Nat) : t.block id = s.block id := by simp [Part.block, h.blocks]

/-! ### Updates of one port -/

/-- One port changes within PortKept. -/
theorem Quiet.setPort (s : Part) (p : PortNo) (x : Port) (h : PortKept (s.port p) x) : Quiet s (s.setPort p x) := by
  have hp : ∀ q, PortKept (s.port q) ((s.setPort p x).port q) := by
    intro q
    rw [Part.port_setPort]
    split_ifs with e
    · exact e ▸ h
    · exact PortKept.refl _
  exact { Quiet.refl s with port := hp, epoch := fun q => (hp q).epoch, fifo := fun q => (hp q).fifo }

theorem Quiet.modPort (s : Part) (p : PortNo) (f : Port → Port) (h : PortKept (s.port p) (f (s.port p))) :
    Quiet s (s.modPort p f) := Quiet.setPort s p _ h

theorem SessionFrame.setPort (s : Part) (p : PortNo) (x : Port) (he : x.epoch = (s.port p).epoch)
    (hf : x.engine.fifo.length ≤ (s.port p).engine.fifo.length) : SessionFrame s (s.setPort p x) := by
  have h1 : ∀ q, ((s.setPort p x).port q).epoch = (s.port q).epoch := by
    intro q
    rw [Part.port_setPort]
    split_ifs with e
    · exact e ▸ he
    · rfl
  have h2 : ∀ q, ((s.setPort p x).port q).engine.fifo.length ≤ (s.port q).engine.fifo.length := by
    intro q
    rw [Part.port_setPort]
    split_ifs with e
    · exact e ▸ hf
    · exact le_refl _
  exact { SessionFrame.refl s with epoch := h1, fifo := h2 }

theorem SessionFrame.modPort (s : Part) (p : PortNo) (f : Port → Port) (he : (f (s.port p)).epoch = (s.port p).epoch)
    (hf : (f (s.port p)).engine.fifo.length ≤ (s.port p).engine.fifo.length) : SessionFrame s (s.modPort p f) :=
  SessionFrame.setPort s p _ he hf

theorem SessionFrame.setSession (s : Part) (n : SessionNo) (x : Session) : SessionFrame s (s.setSession n x) := by
  exact { SessionFrame.refl s with .. }

theorem SessionFrame.modSession (s : Part) (n : SessionNo) (f : Session → Session) : SessionFrame s (s.modSession n f) :=
  SessionFrame.setSession s n _

theorem QueueFrame.setQueue (s : Part) (q : QueueNo) (l : List Ref) : QueueFrame s (s.setQueue q l) := by
  exact { QueueFrame.refl s with .. }

/-- An update of block records alone. -/
theorem StoreFrame.modBlock (s : Part) (id : Nat) (f : Block → Block) : StoreFrame s (s.modBlock id f) := by
  exact { StoreFrame.refl s with .. }

theorem Kept.setTap (s : Part) (t : TapNo) (x : Tap) : Kept s (s.setTap t x) := by
  exact { Kept.refl s with .. }

/-! ### Port functions -/

theorem Port.refreshLines_kept (x : Port) : PortKept x x.refreshLines := by constructor <;> first | rfl | exact Or.inl rfl
theorem Port.startGap_kept (x : Port) : PortKept x x.startGap := by constructor <;> first | rfl | exact Or.inl rfl
theorem Port.withPause_kept (x : Port) (v : Pause) : PortKept x (x.withPause v) := by constructor <;> first | rfl | exact Or.inl rfl
theorem Port.untag_kept (x : Port) (n : SessionNo) : PortKept x (x.untag n) := by
  constructor
  case fifo => simp [Port.untag]
  case head => exact .inl rfl
  all_goals rfl

theorem Port.load_kept (x : Port) : PortKept x x.load := by
  unfold Port.load
  split
  · split
    · constructor <;> first | rfl | exact Or.inl rfl
    · split
      · exact PortKept.refl _
      · next h =>
        split
        · exact PortKept.refl _
        · constructor
          case fifo => simp [h]
          case head => exact .inl rfl
          all_goals rfl
  · exact PortKept.refl _

/-! ### Notices, conditions, the pause, the heads -/

/-- What offering a notice does: one more notice at the tail, or the lost flag. -/
theorem offerNotice_cases (n : Notice) (s : Part) :
    (s.notices.length < Config.noticePlaces ∧ offerNotice n s =
        { s with notices := s.notices ++ [{ n with lost := s.noticesLost }], noticesLost := false })
      ∨ (Config.noticePlaces ≤ s.notices.length ∧ offerNotice n s = { s with noticesLost := true }) := by
  unfold offerNotice
  split_ifs with h
  · exact .inl ⟨h, rfl⟩
  · exact .inr ⟨not_lt.1 h, rfl⟩

theorem offerNotice_quiet (n : Notice) (s : Part) : Quiet s (offerNotice n s) := by
  rcases offerNotice_cases n s with ⟨h, e⟩ | ⟨h, e⟩ <;> rw [e]
  · exact { Quiet.refl s with notices := fun _ => by simp only [List.length_append, List.length_singleton]; omega }
  · exact { Quiet.refl s with .. }

theorem setCondition_quiet (p : PortNo) (c : Condition) (s : Part) : Quiet s (setCondition p c s) := by
  unfold setCondition
  dsimp only
  split
  · exact Quiet.refl s
  · have h : Quiet s (s.setPort p { s.port p with conditions := (s.port p).conditions ||| c.bit }) :=
      Quiet.setPort s p _ (by constructor <;> first | rfl | exact Or.inl rfl)
    split
    · split
      · exact h.trans (offerNotice_quiet _ _)
      · exact h
    · exact h

/-- Offering notices one after another changes the Notice Queue and the lost flag alone, and keeps the queue within its places. -/
theorem offerNotices_eq (l : List Notice) (s : Part) :
    ∃ m b, l.foldl (fun s n => offerNotice n s) s = { s with notices := m, noticesLost := b } ∧
      (s.notices.length ≤ Config.noticePlaces → m.length ≤ Config.noticePlaces) := by
  induction l generalizing s with
  | nil => exact ⟨s.notices, s.noticesLost, rfl, id⟩
  | cons n rest ih =>
    obtain ⟨m, b, e, h⟩ := ih (offerNotice n s)
    refine ⟨m, b, ?_, fun hs => h ((offerNotice_quiet n s).notices hs)⟩
    rw [List.foldl_cons, e]
    rcases offerNotice_cases n s with ⟨_, e'⟩ | ⟨_, e'⟩ <;> rw [e']

/-- What carrying out an operation as one event does: all that the operation does, but for the Notice Queue, to which its notices
go in the order of the table (R179). -/
theorem inTableOrder_eq (p : PortNo) (f : Part → Part) (s : Part) :
    ∃ m b, inTableOrder p f s = { f { s with notices := [], noticesLost := false } with notices := m, noticesLost := b } ∧
      (s.notices.length ≤ Config.noticePlaces → m.length ≤ Config.noticePlaces) := by
  unfold inTableOrder
  extract_lets start t own offered u
  obtain ⟨m, b, e, h⟩ := offerNotices_eq offered { t with notices := s.notices, noticesLost := s.noticesLost }
  have e : u = { t with notices := m, noticesLost := b } := e
  split
  · exact ⟨m, true, by rw [e], h⟩
  · exact ⟨m, b, e, h⟩

theorem StoreFrame.inTableOrder (p : PortNo) (f : Part → Part) (h : ∀ s, StoreFrame s (f s)) (s : Part) :
    StoreFrame s (inTableOrder p f s) := by
  obtain ⟨m, b, e, hl⟩ := inTableOrder_eq p f s
  rw [e]
  exact { h { s with notices := [], noticesLost := false } with notices := hl }

theorem SessionFrame.inTableOrder (p : PortNo) (f : Part → Part) (h : ∀ s, SessionFrame s (f s)) (s : Part) :
    SessionFrame s (inTableOrder p f s) := by
  obtain ⟨m, b, e, hl⟩ := inTableOrder_eq p f s
  rw [e]
  exact { h { s with notices := [], noticesLost := false } with notices := hl }

theorem changePause_quiet (p : PortNo) (v : Pause) (s : Part) : Quiet s (changePause p v s) := by
  unfold changePause
  refine Quiet.trans (t := if v = .asserted then setCondition p .pause (s.modPort p (·.withPause v)) else s.modPort p (·.withPause v)) ?_
    (Quiet.modPort _ p _ (Port.load_kept _))
  have h := Quiet.modPort s p (·.withPause v) (Port.withPause_kept _ v)
  split
  · exact h.trans (setCondition_quiet _ _ _)
  · exact h

theorem evalPause_quiet (p : PortNo) (s : Part) : Quiet s (evalPause p s) := by
  unfold evalPause
  dsimp only
  split
  · split <;> split <;> first | exact changePause_quiet _ _ _ | exact Quiet.refl s
  · exact Quiet.refl s

theorem retryHead_quiet (p : PortNo) (s : Part) : Quiet s (retryHead p s) := by
  refine Quiet.modPort s p _ ?_
  split
  · next h => constructor <;> first | rfl | exact Or.inr ⟨h, rfl⟩
  · exact PortKept.refl _

theorem ownerChanged_quiet (p : PortNo) (s : Part) : Quiet s (ownerChanged p s) := retryHead_quiet p s

theorem reportRelease_quiet (q : QueueNo) (s : Part) : Quiet s (reportRelease q s) := by
  unfold reportRelease
  split
  · exact Quiet.refl s
  · split
    · exact retryHead_quiet _ _
    · exact Quiet.refl s

/-! ### Blocks, cells, bytes -/

theorem freeBlock_store (b : Block) (s : Part) : StoreFrame s (freeBlock b s) := by
  have h1 : StoreFrame s { s with blocks := s.blocks.filter (fun c => c.id != b.id), freeList := s.freeList ++ b.cells } := by
    exact { StoreFrame.refl s with .. }
  unfold freeBlock
  simp only
  split
  · refine h1.trans ?_
    exact { StoreFrame.refl _ with .. }
  · refine StoreFrame.trans ?_ (evalPause_quiet _ _).toStoreFrame
    have h2 := h1.trans (Quiet.modPort _ b.port (fun x => { x with portUse := x.portUse - b.cells.length })
      (by constructor <;> first | rfl | exact Or.inl rfl)).toStoreFrame
    exact { h2 with .. }

theorem dropHold_store (id : Nat) (s : Part) : StoreFrame s (dropHold id s) := by
  unfold dropHold
  split
  · exact StoreFrame.refl s
  · split
    · exact freeBlock_store _ _
    · exact StoreFrame.modBlock _ _ _

theorem closeBlock_store (p : PortNo) (r : CloseReason) (s : Part) : StoreFrame s (closeBlock p r s) := by
  unfold closeBlock
  split
  · exact StoreFrame.refl s
  · refine (StoreFrame.modBlock _ _ _).trans (Quiet.modPort _ p _ ?_).toStoreFrame
    constructor <;> first | rfl | exact Or.inl rfl

theorem markOpenBlock_store (p : PortNo) (g : Nat) (s : Part) : StoreFrame s (markOpenBlock p g s) := by
  unfold markOpenBlock
  split
  · exact StoreFrame.refl s
  · exact StoreFrame.modBlock _ _ _

theorem noticeMatch_store (p : PortNo) (t : TriggerNo) (o : Word32) (s : Part) : StoreFrame s (noticeMatch p t o s) := by
  refine StoreFrame.trans (Quiet.modPort s p _ ?_).toStoreFrame (setCondition_quiet _ _ _).toStoreFrame
  constructor <;> first | rfl | exact Or.inl rfl

theorem fireTrigger_store (p : PortNo) (t : TriggerNo) (o : Word32) (s : Part) : StoreFrame s (fireTrigger p t o s).1 := by
  unfold fireTrigger
  simp only
  have h : StoreFrame s (if (s.trigger t).actions.getLsbD actionMark then markOpenBlock p (s.trigger t).markGroup s else s) := by
    split
    · exact markOpenBlock_store _ _ _
    · exact StoreFrame.refl s
  split
  · exact h.trans (noticeMatch_store _ _ _ _)
  · exact h

theorem advanceTrigger_store (p : PortNo) (b : Byte) (o : Word32) (acc : Part × Bool) (t : TriggerNo) :
    StoreFrame acc.1 (advanceTrigger p b o acc t).1 := by
  unfold advanceTrigger
  simp only
  split
  · split
    · refine StoreFrame.trans (Quiet.modPort _ p _ ?_).toStoreFrame (fireTrigger_store _ _ _ _)
      constructor <;> first | rfl | exact Or.inl rfl
    · dsimp only
      refine (Quiet.modPort _ p _ ?_).toStoreFrame
      constructor <;> first | rfl | exact Or.inl rfl
  · exact StoreFrame.refl _

theorem StoreFrame.foldl {α : Type} (f : Part → α → Part) (h : ∀ s a, StoreFrame s (f s a)) (l : List α) (s : Part) :
    StoreFrame s (l.foldl f s) := by
  induction l generalizing s with
  | nil => exact StoreFrame.refl s
  | cons a rest ih => exact (h s a).trans (ih (f s a))

theorem advanceTriggers_store (p : PortNo) (b : Byte) (o : Word32) (s : Part) : StoreFrame s (advanceTriggers p b o s).1 := by
  unfold advanceTriggers
  suffices h : ∀ (l : List TriggerNo) (acc : Part × Bool), StoreFrame acc.1 (l.foldl (advanceTrigger p b o) acc).1 from h _ (s, false)
  intro l
  induction l with
  | nil => exact fun acc => StoreFrame.refl _
  | cons t rest ih => exact fun acc => (advanceTrigger_store p b o acc t).trans (ih _)

theorem storeByte_store (p : PortNo) (b : Block) (v : Byte) (s : Part) : StoreFrame s (storeByte p b v s) := by
  have h : StoreFrame s { s with mem := Memory.write s.mem (Memory.addressOf b.cells b.length) v } := by
    exact { StoreFrame.refl s with mem := fun hw => Memory.write_wf hw _ _ }
  unfold storeByte
  refine (h.trans (StoreFrame.modBlock _ _ _)).trans (Quiet.modPort _ p _ ?_).toStoreFrame
  constructor <;> first | rfl | exact Or.inl rfl

theorem placeByte_store (p : PortNo) (s : Part) : StoreFrame s (placeByte p s) := by
  unfold placeByte
  split
  · next b v _ _ =>
    dsimp only
    refine StoreFrame.trans ((storeByte_store p b v s).trans (advanceTriggers_store p v (s.port p).streamOffset _)) ?_
    split
    · exact closeBlock_store _ _ _
    · refine (Quiet.modPort _ p _ ?_).toStoreFrame
      split
      · exact Port.startGap_kept _
      · exact PortKept.refl _
  · exact StoreFrame.refl s

theorem yieldOldest_store (p : PortNo) (id : Nat) (s : Part) : StoreFrame s (yieldOldest p id s) := by
  unfold yieldOldest
  refine StoreFrame.trans (Quiet.modPort s p _ ?_).toStoreFrame
    ((setCondition_quiet p .historyYield _).toStoreFrame.trans (dropHold_store id _))
  constructor <;> first | rfl | exact Or.inl rfl

theorem yieldHistory_store (p : PortNo) (chain : List Nat) (s : Part) : StoreFrame s (yieldHistory p chain s).1 := by
  induction chain generalizing s with
  | nil => exact StoreFrame.refl s
  | cons id rest ih =>
    unfold yieldHistory
    simp only
    split
    · exact yieldOldest_store _ _ _
    · exact (yieldOldest_store p id s).trans (ih _)

theorem decideCell_store (p : PortNo) (s : Part) : StoreFrame s (decideCell p s).1 := by
  unfold decideCell
  split
  · exact StoreFrame.refl s
  · exact yieldHistory_store _ _ _

theorem takeCell_store (p : PortNo) (s : Part) : StoreFrame s (takeCell p s) := by
  unfold takeCell
  split
  · exact StoreFrame.refl s
  · next c rest _ =>
    have h : StoreFrame s { s with freeList := rest } := by
      exact { StoreFrame.refl s with .. }
    simp only
    split
    · refine StoreFrame.trans (t := { s with freeList := rest, blocks := s.blocks ++ [newOutputBlock p (s.port p) c] }) ?_
        (Quiet.modPort _ p _ ?_).toStoreFrame
      · exact { StoreFrame.refl s with .. }
      · constructor <;> first | rfl | exact Or.inl rfl
    · exact h.trans (StoreFrame.modBlock _ _ _)

theorem admitCell_store (p : PortNo) (s : Part) : StoreFrame s (admitCell p s) := by
  unfold admitCell
  refine (((takeCell_store p s).trans (Quiet.modPort _ p _ ?_).toStoreFrame).trans (evalPause_quiet p _).toStoreFrame).trans
    (placeByte_store p _)
  constructor <;> first | rfl | exact Or.inl rfl

theorem startWait_store (p : PortNo) (s : Part) : StoreFrame s (startWait p s) := by
  unfold startWait
  have h : StoreFrame s (if s.waitList.contains p then s else { s with waitList := s.waitList ++ [p] }) := by
    split
    · exact StoreFrame.refl s
    · exact { StoreFrame.refl s with .. }
  refine h.trans (Quiet.modPort _ p _ ?_).toStoreFrame
  constructor <;> first | rfl | exact Or.inl rfl

theorem requestCell_store (p : PortNo) (s : Part) : StoreFrame s (requestCell p s) := by
  refine StoreFrame.inTableOrder p _ (fun s => ?_) s
  dsimp only
  split
  · exact (decideCell_store p s).trans (admitCell_store p _)
  · exact (decideCell_store p s).trans (startWait_store p _)

theorem retryPort_store (p : PortNo) (s : Part) : StoreFrame s (retryPort p s) := by
  unfold retryPort
  split
  · refine StoreFrame.inTableOrder p _ (fun s => ?_) s
    dsimp only
    split
    · refine (decideCell_store p s).trans (StoreFrame.trans ?_ (admitCell_store p _))
      exact { StoreFrame.refl _ with .. }
    · exact decideCell_store p s
  · exact StoreFrame.refl s

theorem walkOnce_store (s : Part) : StoreFrame s (walkOnce s) := by
  unfold walkOnce
  refine StoreFrame.trans (t := { s with walkDue := false }) ?_ (StoreFrame.foldl _ (fun s p => retryPort_store p s) _ _)
  exact { StoreFrame.refl s with .. }

theorem walks_store (n : Nat) (s : Part) : StoreFrame s (walks n s) := by
  induction n generalizing s with
  | zero => exact StoreFrame.refl s
  | succ k ih =>
    unfold walks
    split
    · exact (walkOnce_store s).trans (ih _)
    · exact StoreFrame.refl s

theorem settleWalks_store (s : Part) : StoreFrame s (settleWalks s) := walks_store _ s

theorem releaseHold_store (id : Nat) (s : Part) : StoreFrame s (releaseHold id s) := by
  unfold releaseHold
  split
  · exact StoreFrame.refl s
  · simp only
    split
    · exact ((dropHold_store id s).trans (retryPort_store _ _)).trans (settleWalks_store _)
    · exact dropHold_store id s

theorem offerHeldByte_store (p : PortNo) (s : Part) : StoreFrame s (offerHeldByte p s) := by
  unfold offerHeldByte
  split
  · split
    · exact (requestCell_store p s).trans (settleWalks_store _)
    · exact placeByte_store p s
  · exact (requestCell_store p s).trans (settleWalks_store _)

theorem trimLoop_store (p : PortNo) (n : Nat) (s : Part) : StoreFrame s (trimLoop p n s) := by
  induction n generalizing s with
  | zero => exact StoreFrame.refl s
  | succ k ih =>
    unfold trimLoop
    cases h : (s.port p).chain with
    | nil => exact StoreFrame.refl s
    | cons id rest =>
      dsimp only
      split
      · refine StoreFrame.trans (StoreFrame.trans (Quiet.modPort s p _ ?_).toStoreFrame (releaseHold_store _ _)) (ih _)
        constructor <;> first | rfl | exact Or.inl rfl
      · exact StoreFrame.refl s

theorem trimChain_store (p : PortNo) (s : Part) : StoreFrame s (trimChain p s) := trimLoop_store p _ s

/-! ### Delivery queues -/

theorem addRef_queue (q : QueueNo) (id : Nat) (history : Bool) (s : Part) : QueueFrame s (addRef q id history s) :=
  (QueueFrame.setQueue s q _).trans (StoreFrame.modBlock _ _ _).toQueueFrame

theorem releaseOldest_queue (q : QueueNo) (r : Ref) (s : Part) : QueueFrame s (releaseOldest q r s) :=
  ((QueueFrame.setQueue s q _).trans (releaseHold_store _ _).toQueueFrame).trans (reportRelease_quiet q _).toQueueFrame

theorem releaseOldest_get (q q' : QueueNo) (r : Ref) (s : Part) :
    (releaseOldest q r s).queue q' = if q = q' then (s.queue q).tail else s.queue q' := by
  unfold releaseOldest
  rw [(reportRelease_quiet q _).queue, (releaseHold_store r.block _).queue, Part.queue_setQueue]

theorem QueueFrame.foldl {α : Type} (f : Part → α → Part) (h : ∀ s a, QueueFrame s (f s a)) (l : List α) (s : Part) :
    QueueFrame s (l.foldl f s) := by
  induction l generalizing s with
  | nil => exact QueueFrame.refl s
  | cons a rest ih => exact (h s a).trans (ih (f s a))

theorem clearQueue_queue (q : QueueNo) (s : Part) : QueueFrame s (clearQueue q s) :=
  QueueFrame.foldl _ (fun s r => releaseOldest_queue q r s) _ _

/-- Clearing a queue empties it and leaves every other queue alone (R77). -/
theorem clearQueue_get (q q' : QueueNo) (s : Part) :
    (clearQueue q s).queue q' = if q = q' then [] else s.queue q' := by
  unfold clearQueue
  have h : ∀ (l : List Ref) (s : Part), (l.foldl (fun s r => releaseOldest q r s) s).queue q'
      = if q = q' then (s.queue q).drop l.length else s.queue q' := by
    intro l
    induction l with
    | nil => intro s; split_ifs with e <;> simp [e]
    | cons r rest ih =>
      intro s
      simp only [List.foldl_cons, ih, releaseOldest_get]
      split_ifs with e
      · simp
      · rfl
  rw [h]
  split_ifs <;> simp

/-! ### Replies and sessions -/

/-- What forming a reply does: a reserved slot takes it and joins the formed replies; any other slot is left. -/
theorem formReply_cases (k : SlotNo) (code : ResultCode) (data : List Byte) (s : Part) :
    (∃ h, s.slot k = .reserved h ∧ formReply k code data s =
        { s.setSlot k (.formed h code data) with formed := s.formed ++ [k] })
      ∨ ((∀ h, s.slot k ≠ .reserved h) ∧ formReply k code data s = s) := by
  unfold formReply
  cases hk : s.slot k with
  | free => right; simp
  | reserved h => left; exact ⟨h, rfl, rfl⟩
  | formed h c d => right; simp

theorem formReply_frame (k : SlotNo) (code : ResultCode) (data : List Byte) (s : Part) : SessionFrame s (formReply k code data s) := by
  rcases formReply_cases k code data s with ⟨h, _, e⟩ | ⟨_, e⟩ <;> rw [e]
  · exact { SessionFrame.refl s with .. }
  · exact SessionFrame.refl s

theorem demote_frame (n : SessionNo) (r : EventReason) (taker : Option SessionNo) (s : Part) : SessionFrame s (demote n r taker s) := by
  unfold demote
  exact ((SessionFrame.modSession s n _).trans (offerNotice_quiet _ _).toSessionFrame).trans (ownerChanged_quiet _ _).toSessionFrame

theorem withdrawAttention_frame (n : SessionNo) (s : Part) : SessionFrame s (withdrawAttention n s) := by
  unfold withdrawAttention
  split
  · exact { SessionFrame.refl s with notices := fun h => by simpa using h }
  · exact { SessionFrame.refl s with notices := fun h => (List.length_filter_le _ _).trans h }

theorem offerEndNotice_quiet (n : SessionNo) (x : Session) (r : EndReason) (d : Address) (s : Part) :
    Quiet s (offerEndNotice n x r d s) := by
  unfold offerEndNotice
  split
  · exact offerNotice_quiet _ _
  · exact Quiet.refl s

theorem formDetachReply_frame (x : Session) (r : EndReason) (code : ResultCode) (n : Nat) (s : Part) :
    SessionFrame s (formDetachReply x r code n s) := by
  unfold formDetachReply
  split
  · exact formReply_frame _ _ _ _
  · exact SessionFrame.refl s

theorem endSession_frame (n : SessionNo) (r : EndReason) (code : ResultCode) (d : Nat) (dst : Address) (s : Part) :
    SessionFrame s (endSession n r code d dst s) := by
  unfold endSession
  extract_lets s1 x s2 s3 s4 s5 s6 s7
  have h1 : SessionFrame s s1 := (clearQueue_queue _ s).toSessionFrame
  have h2 : SessionFrame s1 s2 := by
    unfold s2
    split
    · exact (ownerChanged_quiet _ _).toSessionFrame
    · exact SessionFrame.refl _
  have h3 : SessionFrame s2 s3 := SessionFrame.modPort _ _ _ (Port.untag_kept _ n).epoch (Port.untag_kept _ n).fifo
  have h4 : SessionFrame s3 s4 := by
    exact { SessionFrame.refl _ with .. }
  have h5 : SessionFrame s4 s5 := by
    unfold s5
    split
    · exact withdrawAttention_frame _ _
    · exact SessionFrame.refl _
  have h6 : SessionFrame s5 s6 := formDetachReply_frame _ _ _ _ _
  have h7 : SessionFrame s6 s7 := SessionFrame.setSession _ _ _
  exact (((((((h1.trans h2).trans h3).trans h4).trans h5).trans h6).trans h7)).trans (offerEndNotice_quiet _ _ _ _ _).toSessionFrame

theorem SessionFrame.foldl {α : Type} (f : Part → α → Part) (h : ∀ s a, SessionFrame s (f s a)) (l : List α) (s : Part) :
    SessionFrame s (l.foldl f s) := by
  induction l generalizing s with
  | nil => exact SessionFrame.refl s
  | cons a rest ih => exact (h s a).trans (ih (f s a))

theorem Kept.foldl {α : Type} (f : Part → α → Part) (h : ∀ s a, Kept s (f s a)) (l : List α) (s : Part) :
    Kept s (l.foldl f s) := by
  induction l generalizing s with
  | nil => exact Kept.refl s
  | cons a rest ih => exact (h s a).trans (ih (f s a))

theorem abortSession_frame (r : EndReason) (s : Part) (n : SessionNo) : SessionFrame s (abortSession r s n) :=
  endSession_frame _ _ _ _ _ _

/-! ### A character as it is sent -/

/-- It is as many bits long as R41 counts. -/
theorem characterSent_length (e : Profile) (b : Byte) :
    (characterSent e b).length = charBitsOf e.dataBits e.parity e.stopBits := by
  cases h : e.parity <;> simp [characterSent, charBitsOf, dataBitsSent, paritySent, h] <;> omega

/-- The parity bit a port sends passes the check of a receiver of the same format (R23, R30). -/
theorem paritySent_passes (p : Parity) (dataBits : Nat) (h : dataBits = 7 ∨ dataBits = 8) (b : Byte) (bit : Bool)
    (hb : paritySent p (dataBitsSent dataBits b) = some bit) : parityGood p (lineByte dataBits b) bit = true := by
  revert b bit
  obtain rfl | rfl := h <;> cases p <;> decide +kernel

end Sys2Proof.Machine
end

