-- ==== Sys2Proof/Laws/Cascades.lean ====
section
/-!
SUPPORT. The frames of the operations on a port's life, on taps and on a peer's entry, and what the end of a command changes.
-/
namespace Sys2Proof.Machine

/-! ### Signals, engines, stop and start -/

theorem Port.dropSignal_fifo (x : Port) (e : Bool) : (x.dropSignal e).engine.fifo = x.engine.fifo := rfl
theorem Port.dropSignal_epoch (x : Port) (e : Bool) : (x.dropSignal e).epoch = x.epoch := rfl

theorem abortSignal_frame (p : PortNo) (s : Part) : SessionFrame s (abortSignal p s) := by
  unfold abortSignal
  split
  · exact SessionFrame.refl s
  · exact (SessionFrame.modPort s p (fun x => x.dropSignal true) rfl (le_refl _)).trans (formReply_frame _ _ _ _)

theorem stopEngine_frame (p : PortNo) (s : Part) : SessionFrame s (stopEngine p s) := by
  have h := SessionFrame.modPort s p (fun x => { x with engine := .initial }) rfl (by simp [Engine.initial])
  exact { h with .. }

theorem startEngine_frame (p : PortNo) (s : Part) : SessionFrame s (startEngine p s) := by
  unfold startEngine
  exact (SessionFrame.modPort s p (fun x => Port.refreshLines { x with engine := .initial }) rfl
    (by simp [Port.refreshLines, Engine.initial])).trans (evalPause_quiet _ _).toSessionFrame

theorem abortPendingLoad_frame (p : PortNo) (s : Part) : SessionFrame s (abortPendingLoad p s) := by
  unfold abortPendingLoad
  split
  · exact SessionFrame.refl s
  · exact (SessionFrame.modPort s p (fun x => { x with pendingLoad := none }) rfl (le_refl _)).trans (formReply_frame _ _ _ _)

theorem discardBlocks_frame (p : PortNo) (s : Part) : SessionFrame s (discardBlocks p s) := by
  unfold discardBlocks
  refine SessionFrame.trans (SessionFrame.modPort s p _ ?_ ?_)
    (StoreFrame.foldl _ (fun s id => releaseHold_store id s) _ _).toSessionFrame
  · rfl
  · exact le_refl _

theorem stopPort_frame (p : PortNo) (r : EndReason) (s : Part) : SessionFrame s (stopPort p r s) := by
  unfold stopPort
  refine SessionFrame.trans ?_ (discardBlocks_frame _ _)
  refine SessionFrame.trans ?_ (SessionFrame.modPort _ p (fun x => { x with lines := .allDeassert }) rfl (le_refl _))
  refine SessionFrame.trans ?_ (abortPendingLoad_frame _ _)
  refine SessionFrame.trans ?_ (abortSignal_frame _ _)
  refine SessionFrame.trans ?_ (SessionFrame.foldl _ (fun s n => abortSession_frame r s n) _ _)
  refine SessionFrame.trans ?_ (stopEngine_frame _ _)
  exact SessionFrame.modPort _ p (fun x => { x with portState := .disabled, reconfigTimer := none }) rfl (le_refl _)

theorem startPort_frame (p : PortNo) (s : Part) : SessionFrame s (startPort p s) := by
  unfold startPort
  split
  · refine SessionFrame.trans ?_ (startEngine_frame _ _)
    exact (SessionFrame.modPort s p (fun x => { x with portState := .localHold }) rfl (le_refl _)).trans
      (setCondition_quiet _ _ _).toSessionFrame
  · exact (SessionFrame.modPort s p (fun x => { x with portState := .active }) rfl (le_refl _)).trans (startEngine_frame _ _)

/-! ### Presence and profile applies -/

theorem enterLocalHold_frame (p : PortNo) (s : Part) : SessionFrame s (enterLocalHold p s) := by
  unfold enterLocalHold
  refine SessionFrame.trans ?_ (setCondition_quiet _ _ _).toSessionFrame
  refine SessionFrame.trans ?_ (abortSignal_frame _ _)
  refine SessionFrame.trans ?_ (SessionFrame.modPort _ p
    (fun x => { x with engine := { x.engine with fifo := [] }, portState := .localHold }) rfl (by simp))
  split
  · exact demote_frame _ _ _ _
  · exact SessionFrame.refl s

theorem storeProfile_frame (p : PortNo) (e : Profile) (s : Part) : SessionFrame s (storeProfile p e s) :=
  SessionFrame.modPort s p _ rfl (le_refl _)

theorem Port.enterSoft_kept (x : Port) : PortKept x x.enterSoft := by
  unfold Port.enterSoft
  split
  · constructor <;> first | rfl | exact Or.inl rfl
  · exact PortKept.refl _

theorem takeGroups_frame (p : PortNo) (e : Profile) (s : Part) : SessionFrame s (takeGroups p e s) := by
  unfold takeGroups
  extract_lets s1 s2 s3
  have h1 : SessionFrame s s1 :=
    (closeBlock_store p .portEvent s).toSessionFrame.trans (SessionFrame.modPort _ p (fun x => x.takeProfile e) rfl (le_refl _))
  have h2 : SessionFrame s1 s2 :=
    ((evalPause_quiet p s1).trans (Quiet.modPort _ p _ (Port.enterSoft_kept _))).toSessionFrame
  have h3 : SessionFrame s2 s3 :=
    (((trimChain_store p s2).trans (retryPort_store p _)).trans (settleWalks_store _)).toSessionFrame
  refine ((h1.trans h2).trans h3).trans ?_
  split
  · exact enterLocalHold_frame _ _
  · exact SessionFrame.refl _

theorem applyProfile_frame (p : PortNo) (e : Profile) (s : Part) : SessionFrame s (applyProfile p e s) :=
  SessionFrame.inTableOrder p _ (takeGroups_frame p e) s

theorem finishLoad_frame (p : PortNo) (s : Part) : SessionFrame s (finishLoad p s) := by
  unfold finishLoad
  split
  · exact SessionFrame.refl s
  · refine SessionFrame.trans ?_ (Quiet.modPort _ p _ (Port.load_kept _)).toSessionFrame
    have h := SessionFrame.modPort s p (fun x =>
      { x with pendingLoad := none, reconfigTimer := none,
               portState := if x.portState = .reconfig then .active else x.portState }) rfl (le_refl _)
    split
    · exact h.trans (formReply_frame _ _ _ _)
    · exact h.trans ((applyProfile_frame _ _ _).trans (formReply_frame _ _ _ _))

theorem reconfigIdle_frame (p : PortNo) (s : Part) : SessionFrame s (reconfigIdle p s) := by
  unfold reconfigIdle
  split
  · exact finishLoad_frame _ _
  · exact SessionFrame.refl s

theorem finishFlushed_frame (p : PortNo) (s : Part) : SessionFrame s (finishFlushed p s) := by
  unfold finishFlushed
  split
  · exact finishLoad_frame _ _
  · exact SessionFrame.refl s

theorem holdReconfig_frame (p : PortNo) (s : Part) : SessionFrame s (holdReconfig p s) := by
  unfold holdReconfig
  exact (enterLocalHold_frame p s).trans (SessionFrame.modPort _ p _ rfl (le_refl _))

theorem presenceAsserts_frame (p : PortNo) (s : Part) : SessionFrame s (presenceAsserts p s) := by
  unfold presenceAsserts
  split
  · exact SessionFrame.refl s
  · exact (setCondition_quiet _ _ _).toSessionFrame
  · exact (enterLocalHold_frame _ _).trans (Quiet.modPort _ p _ (Port.load_kept _)).toSessionFrame
  · refine SessionFrame.trans ?_ (Quiet.modPort _ p _ (Port.load_kept _)).toSessionFrame
    split
    · exact SessionFrame.inTableOrder p _ (fun s => (holdReconfig_frame p s).trans (finishFlushed_frame _ _)) s
    · exact holdReconfig_frame p s

theorem endSignal_frame (p : PortNo) (s : Part) : SessionFrame s (endSignal p s) := by
  unfold endSignal
  split
  · exact SessionFrame.refl s
  · refine SessionFrame.trans ?_ (reconfigIdle_frame _ _)
    refine SessionFrame.trans ?_ (Quiet.modPort _ p _ (Port.load_kept _)).toSessionFrame
    exact (SessionFrame.modPort s p (fun x => x.dropSignal false) rfl (le_refl _)).trans (formReply_frame _ _ _ _)

/-! ### Taps and peers -/

theorem Kept.modTap (s : Part) (t : TapNo) (f : Tap → Tap) : Kept s (s.modTap t f) := Kept.setTap s t _

theorem countCut_kept (t : TapNo) (id : Nat) (s : Part) : Kept s (countCut t id s) := by
  unfold countCut
  split
  · exact Kept.refl s
  · exact Kept.modTap _ _ _

theorem cutTapQueue_kept (t : TapNo) (limit n : Nat) (s : Part) : Kept s (cutTapQueue t limit n s) := by
  induction n generalizing s with
  | zero => exact Kept.refl s
  | succ k ih =>
    unfold cutTapQueue
    cases h : (s.queue (tapQueue t)).getLast? with
    | none => exact Kept.refl s
    | some r =>
      dsimp only
      split
      · refine Kept.trans ?_ (ih _)
        refine Kept.trans ?_ (reportRelease_quiet _ _).toKept
        refine Kept.trans ?_ (releaseHold_store _ _).toKept
        exact (countCut_kept t r.block s).trans (QueueFrame.setQueue _ _ _).toKept
      · exact Kept.refl s

theorem disableTap_kept (t : TapNo) (s : Part) : Kept s (disableTap t s) :=
  (Kept.modTap _ _ _).trans (clearQueue_queue _ _).toKept

theorem disableTapsOf_kept (i : PeerNo) (s : Part) : Kept s (disableTapsOf i s) := by
  refine Kept.foldl _ (fun s t => ?_) _ _
  split
  · exact disableTap_kept _ _
  · exact Kept.refl _

theorem dropSupervisor_kept (i : PeerNo) (s : Part) : Kept s (dropSupervisor i s) := by
  unfold dropSupervisor
  split
  · exact { Kept.refl s with .. }
  · exact Kept.refl s

theorem endSessionsLeft_frame (i : PeerNo) (g : PortNo → Bool) (s : Part) : SessionFrame s (endSessionsLeft i g s) := by
  refine SessionFrame.foldl _ (fun s n => ?_) _ _
  split
  · exact abortSession_frame _ _ _
  · exact SessionFrame.refl _

theorem demoteOwners_frame (i : PeerNo) (s : Part) : SessionFrame s (demoteOwners i s) := by
  refine SessionFrame.foldl _ (fun s n => ?_) _ _
  split
  · exact demote_frame _ _ _ _
  · exact SessionFrame.refl _

theorem identityChanged_kept (i : PeerNo) (old : Peer) (s : Part) : Kept s (identityChanged i old s) := by
  unfold identityChanged
  refine Kept.trans ?_ (dropSupervisor_kept i _)
  refine Kept.trans ?_ (disableTapsOf_kept i _)
  exact (SessionFrame.foldl _ (fun s n => endSession_frame n .peerRemoved .aborted 0 _ s) (s.sessionsOf i) s).toKept

theorem rightsChanged_kept (i : PeerNo) (old new : Peer) (s : Part) : Kept s (rightsChanged i old new s) := by
  unfold rightsChanged
  extract_lets s1 s2 s3
  have h1 : Kept s s1 := (endSessionsLeft_frame _ _ _).toKept
  have h2 : Kept s1 s2 := by
    unfold s2
    split
    · exact (demoteOwners_frame _ _).toKept
    · exact Kept.refl _
  have h3 : Kept s2 s3 := by
    unfold s3
    split
    · exact disableTapsOf_kept _ _
    · exact Kept.refl _
  refine ((h1.trans h2).trans h3).trans ?_
  split
  · exact dropSupervisor_kept _ _
  · exact Kept.refl _

theorem bringIntoLine_frame (s : Part) (i : PeerNo) : SessionFrame s (bringIntoLine s i) := by
  unfold bringIntoLine
  dsimp only
  split
  · split
    · exact (endSessionsLeft_frame _ _ _).trans (demoteOwners_frame _ _)
    · exact endSessionsLeft_frame _ _ _
  · exact SessionFrame.refl s

theorem recomputeCommissioning_kept (s : Part) : Kept s (recomputeCommissioning s) := by
  unfold recomputeCommissioning
  have h : Kept s { s with commissioning := s.commissioningNow } := { Kept.refl s with .. }
  dsimp only
  split
  · exact h.trans (Kept.foldl _ (fun s i => (bringIntoLine_frame s i).toKept) _ _)
  · exact h

/-! ### The end of a command -/

/-- The arbiter and the Scheduler change their own state alone. -/
theorem settle_eq (s : State) :
    settle s = { s with part := { s.part with chosen := (settle s).part.chosen, curQueue := (settle s).part.curQueue,
                                              framesLeft := (settle s).part.framesLeft } } := by
  unfold settle nameCandidate chooseControl
  dsimp only
  repeat' split
  all_goals rfl

@[simp] theorem settle_pending (s : State) : (settle s).pending = s.pending := by rw [settle_eq]
@[simp] theorem settle_uplink (s : State) : (settle s).uplink = s.uplink := by rw [settle_eq]
@[simp] theorem settle_slots (s : State) : (settle s).part.slots = s.part.slots := by rw [settle_eq]
@[simp] theorem settle_formed (s : State) : (settle s).part.formed = s.part.formed := by rw [settle_eq]
@[simp] theorem settle_peers (s : State) : (settle s).part.peers = s.part.peers := by rw [settle_eq]
@[simp] theorem settle_triggers (s : State) : (settle s).part.triggers = s.part.triggers := by rw [settle_eq]
@[simp] theorem settle_taps (s : State) : (settle s).part.taps = s.part.taps := by rw [settle_eq]
@[simp] theorem settle_system (s : State) : (settle s).part.system = s.part.system := by rw [settle_eq]
@[simp] theorem settle_ports (s : State) : (settle s).part.ports = s.part.ports := by rw [settle_eq]
@[simp] theorem settle_sessions (s : State) : (settle s).part.sessions = s.part.sessions := by rw [settle_eq]
@[simp] theorem settle_mem (s : State) : (settle s).part.mem = s.part.mem := by rw [settle_eq]
@[simp] theorem settle_freeList (s : State) : (settle s).part.freeList = s.part.freeList := by rw [settle_eq]
@[simp] theorem settle_blocks (s : State) : (settle s).part.blocks = s.part.blocks := by rw [settle_eq]
@[simp] theorem settle_queues (s : State) : (settle s).part.queues = s.part.queues := by rw [settle_eq]
@[simp] theorem settle_transmission (s : State) : (settle s).part.transmission = s.part.transmission := by rw [settle_eq]
@[simp] theorem settle_notices (s : State) : (settle s).part.notices = s.part.notices := by rw [settle_eq]
@[simp] theorem settle_imageState (s : State) : (settle s).part.imageState = s.part.imageState := by rw [settle_eq]
@[simp] theorem settle_save (s : State) : (settle s).part.save = s.part.save := by rw [settle_eq]
@[simp] theorem settle_lastControl (s : State) : (settle s).part.lastControl = s.part.lastControl := by rw [settle_eq]

/-! ### Taking a request -/

/-- Everything that taking a request of a row can do: nothing, drop a frame of unknown source, refuse it, or carry it out. -/
theorem takeRequest_cases (r : RequestRow) (carry : Request → State → State) (s : State) :
    takeRequest r carry s = s
    ∨ (∃ f k, s.nextFrame = some (f, k) ∧ r.takes f = true ∧ s.part.openRequest f k = none
        ∧ takeRequest r carry s = s.dropUnknown)
    ∨ (∃ f k c code, s.nextFrame = some (f, k) ∧ r.takes f = true ∧ s.part.openRequest f k = some c
        ∧ (s.claim f k).part.decoderRefusal r f c = some code
        ∧ takeRequest r carry s = { s.claim f k with part := answer c code [] (s.claim f k).part })
    ∨ (∃ f k c, s.nextFrame = some (f, k) ∧ r.takes f = true ∧ s.part.openRequest f k = some c
        ∧ (s.claim f k).part.decoderRefusal r f c = none
        ∧ takeRequest r carry s
            = carry c { s.claim f k with part := touchNamed r.session c (s.claim f k).part }) := by
  unfold takeRequest
  cases hn : s.nextFrame with
  | none => left; rfl
  | some fk =>
    obtain ⟨f, k⟩ := fk
    dsimp only
    by_cases ht : r.takes f = true
    · rw [if_pos ht]
      cases ho : s.part.openRequest f k with
      | none => right; left; exact ⟨f, k, rfl, ht, ho, rfl⟩
      | some c =>
        dsimp only
        cases hd : (s.claim f k).part.decoderRefusal r f c with
        | none => right; right; right; exact ⟨f, k, c, rfl, ht, ho, hd, rfl⟩
        | some code => right; right; left; exact ⟨f, k, c, code, rfl, ht, ho, hd, rfl⟩
    · rw [if_neg ht]
      left; rfl

theorem takePartRequest_eq (r : RequestRow) (carry : Request → Part → Part) (s : State) :
    takePartRequest r carry s = takeRequest r (fun c s => { s with part := carry c s.part }) s := rfl

/-- The request that peer matching opens holds the slot and the header of its frame. -/
theorem openRequest_fields {s : Part} {f : RelayFrame} {k : SlotNo} {c : Request} (h : s.openRequest f k = some c) :
    c.slot = k ∧ c.header = f.header ∧ c.body = f.body := by
  unfold Part.openRequest at h
  split at h
  · split at h <;> (cases h; exact ⟨rfl, rfl, rfl⟩)
  · split at h
    · cases h; exact ⟨rfl, rfl, rfl⟩
    · cases h

/-- A frame that may be taken stands at the head of the Receive FIFO, and its slot is free. -/
theorem nextFrame_some {s : State} {f : RelayFrame} {k : SlotNo} (h : s.nextFrame = some (f, k)) :
    (∃ rest, s.uplink.rxFifo = f :: rest) ∧ s.part.freeSlot = some k := by
  unfold State.nextFrame at h
  split at h
  · next a b c d ha hb => cases h; exact ⟨⟨_, ha⟩, hb⟩
  · cases h

theorem freeSlot_free {s : Part} {k : SlotNo} (h : s.freeSlot = some k) : s.slot k = .free := by
  unfold Part.freeSlot at h
  simpa using List.find?_some h

@[simp] theorem claim_slot (s : State) (f : RelayFrame) (k : SlotNo) : (s.claim f k).part.slot k = .reserved f.header := by
  simp [State.claim]
@[simp] theorem claim_session (s : State) (f : RelayFrame) (k : SlotNo) (n : SessionNo) :
    (s.claim f k).part.session n = s.part.session n := rfl
@[simp] theorem claim_port (s : State) (f : RelayFrame) (k : SlotNo) (p : PortNo) :
    (s.claim f k).part.port p = s.part.port p := rfl

/-- The Decoder's checks read no reply slot. -/
theorem claim_refusal (s : State) (f : RelayFrame) (k : SlotNo) (r : RequestRow) (c : Request) :
    (s.claim f k).part.decoderRefusal r f c = s.part.decoderRefusal r f c := rfl

/-- Answering the request of a reserved slot forms its reply. -/
theorem answer_reserved {c : Request} {s : Part} {h : ReqHeader} (code : ResultCode) (data : List Byte)
    (hk : s.slot c.slot = .reserved h) :
    answer c code data s = { s.setSlot c.slot (.formed h code data) with formed := s.formed ++ [c.slot] } := by
  simp [answer, formReply, hk]

theorem answer_frame (c : Request) (code : ResultCode) (data : List Byte) (s : Part) : SessionFrame s (answer c code data s) :=
  formReply_frame _ _ _ _

theorem touchNamed_frame (u : SessionUse) (c : Request) (s : Part) : SessionFrame s (touchNamed u c s) := by
  unfold touchNamed
  split
  · exact SessionFrame.modSession _ _ _
  · exact SessionFrame.refl _

/-- The candidates of a HISTORY are always the newest blocks of the chain (R114). -/
theorem Part.historyCandidates_suffix (s : Part) (p : PortNo) (start : Word32) :
    s.historyCandidates p start <:+ (s.port p).chain := by
  unfold Part.historyCandidates
  dsimp only
  split
  · exact List.dropWhile_suffix _
  · exact List.nil_suffix

end Sys2Proof.Machine
end

