-- ==== Sys2Proof/Laws/Image.lean ====
section
/-!
SUPPORT. What the check of R183 reads of an image that SAVE wrote: its tail is the CRC of what stands before it, and everything
else it reads stands in the header and the records.
-/
namespace Sys2Proof.Machine

/-- The header and the records of an image, before its CRC (R190). -/
def Tables.beforeCrc (t : Tables) : List Byte :=
  bytesOf 4 imageMarker ++ bytesOf 2 imageVersion ++ bytesOf 4 recordBytes ++ [0, 0] ++ t.records

theorem image_is_sealed (t : Tables) : t.image = t.beforeCrc ++ bytesOf 4 (crc32 t.beforeCrc).toNat := rfl

/-- Four bytes spell the 32-bit number they were written from. -/
theorem numOf_bytesOf_four (x : BitVec 32) : numOf (bytesOf 4 x.toNat) = x.toNat := by
  have h := x.isLt
  simp only [numOf, bytesOf, List.foldl_cons, List.foldl_nil, BitVec.toNat_ofNat]
  omega

/-- What is read before the end of the first part of a list is read of that part. -/
theorem slice_append_left (l r : List Byte) (a n : Nat) (h : a + n ≤ l.length) : ((l ++ r).drop a).take n = (l.drop a).take n := by
  rw [List.drop_append_of_le_length (by omega), List.take_append_of_le_length (by simp; omega)]

theorem numAt_append_left (l r : List Byte) (a n : Nat) (h : a + n ≤ l.length) : numAt (l ++ r) a n = numAt l a n := by
  simp only [numAt, slice_append_left l r a n h]

theorem recordsAt_append_left (l r : List Byte) (a size n : Nat) (h : a + n * size ≤ l.length) :
    recordsAt (l ++ r) a size n = recordsAt l a size n := by
  refine List.map_congr_left fun k hk => slice_append_left l r _ _ ?_
  have : (k + 1) * size ≤ n * size := Nat.mul_le_mul_right _ (List.mem_range.mp hk)
  rw [Nat.add_mul] at this
  omega

/-- The check of R183 on 2,920 bytes with their CRC behind them: the CRC agrees, and the rest is read of those bytes. -/
theorem loadImage_sealed (l : List Byte) (h : l.length = 2920) :
    loadImage (l ++ bytesOf 4 (crc32 l).toNat) =
      (if numAt l 0 4 = imageMarker ∧ numAt l 4 2 = imageVersion ∧ numAt l 6 4 = recordBytes then
        (SystemRecord.ofBytes ((l.drop 12).take 12)).bind fun system =>
          (profilesOfImage (recordsAt l 664 40 48)).bind fun profiles =>
            if (profiles.map Profile.reserve).sum ≤ 2048 then
              let peers := tableOf 32 (peersOfImage (recordsAt l 24 20 32)) .empty
              some { system, peers, profiles := tableOf 48 profiles .default
                     triggers := tableOf 16 ((recordsAt l 2584 16 16).map Trigger.ofImage) .empty
                     taps := tableOf 4 ((recordsAt l 2840 20 4).map fun r => TapEntry.ofImage r peers) .empty }
            else none
       else none) := by
  have ht : (l ++ bytesOf 4 (crc32 l).toNat).take 2920 = l := by rw [← h, List.take_left]
  have hc : numAt (l ++ bytesOf 4 (crc32 l).toNat) 2920 4 = (crc32 l).toNat := by
    have : (l ++ bytesOf 4 (crc32 l).toNat).drop 2920 = bytesOf 4 (crc32 l).toNat := by rw [← h, List.drop_left]
    rw [numAt, this, List.take_of_length_le (by simp [bytesOf]), numOf_bytesOf_four]
  have hl : (l ++ bytesOf 4 (crc32 l).toNat).length = Config.imageSize := by
    rw [List.length_append, h]
    rfl
  rw [loadImage, ht, hc, hl, numAt_append_left _ _ _ _ (by omega), numAt_append_left _ _ _ _ (by omega),
    numAt_append_left _ _ _ _ (by omega), slice_append_left _ _ _ _ (by omega), recordsAt_append_left _ _ _ _ _ (by omega),
    recordsAt_append_left _ _ _ _ _ (by omega), recordsAt_append_left _ _ _ _ _ (by omega),
    recordsAt_append_left _ _ _ _ _ (by omega)]
  by_cases h1 : numAt l 0 4 = imageMarker <;> by_cases h2 : numAt l 4 2 = imageVersion <;>
    by_cases h3 : numAt l 6 4 = recordBytes <;> simp [h1, h2, h3, guard]
  refine congrArg _ (funext fun _ => congrArg _ (funext fun ps => ?_))
  by_cases h4 : (ps.map Profile.reserve).sum ≤ 2048 <;> simp [h4]

end Sys2Proof.Machine
end

