-- ==== Sys2Proof/WellFormed.lean ====
section
/-!
DEFINITION. Which commands the outside world can send. Port and session numbers are in range by their types; two checks
remain. The machine gives every command a meaning, well-formed or not.
-/
namespace Sys2Proof

/-- The later sample of R31 is taken only of a character whose first stop bit is at space. -/
def RxSample.wellFormed (r : RxSample) : Bool := !(r.stopMark && r.stillSpace)

/-- A read of the image area of the flash gives the whole area, 2,924 bytes (R190), or does not answer. -/
def FlashAnswer.wellFormed : FlashAnswer → Bool
  | .bytes l => l.length == Config.imageSize
  | .stored => true
  | .silent => true

/-- The command is one that the outside world can send. -/
def Instr.wellFormed : Instr → Bool
  | .rxCharacterComplete _ r => r.wellFormed
  | .saveWriteEnd f => f.wellFormed
  | .powerOn _ _ f => f.wellFormed
  | .pinReset _ _ f => f.wellFormed
  | .frameArrival _ _ | .unknownKindRequest | .identify | .attach | .detachNow | .detachFlush | .keys | .take | .yield
  | .history | .digestReset | .attention | .signalBreak | .signalAuxPulse | .signalDtrPulse | .stage | .apply | .snapshot
  | .portControlEnable | .portControlDisable | .portControlReset | .clear | .resume | .loadPeer | .loadProfile | .loadTrigger
  | .loadTap | .loadSystem | .readPeer | .readProfile | .readTrigger | .readTap | .readSystem | .statusSystem | .statusPort
  | .statusSession | .save | .restart | .saveTimeout | .txCharacterComplete _ | .ctsChange _ _ | .dsrChange _ _
  | .dsrDebounceExpiry _ | .reconfigTimerExpiry _ | .idleGapExpiry _ | .fanoutServe | .holdTimerExpiry _
  | .sessionIdleTimeout _ | .drainTimerExpiry _ | .dataFrameBegin | .dataFrameComplete | .controlFrameBegin | .replyComplete
  | .noticeComplete | .shaperTokenRise | .linkDown | .linkUp | .breakSpaceExpiry _ | .breakMarkExpiry _ | .pulseExpiry _
  | .rxdReturnToMark _ | .startBitNoise _ => true

end Sys2Proof
end

