-- ==== Sys2Proof/Tests/Slice0.lean ====
section
/-!
SUPPORT. Tests. First the smoke tests of WellFormed, then the manual's worked figures, then one small test or two per kind of
command; last, for every statement that has hypotheses, a witness: concrete states and operands that meet the hypotheses of each
of its clauses together. Expected values come from the manual's tables and examples or are worked out by hand from its rules.
-/
namespace Sys2Proof.Tests
open Sys2Proof.Machine Sys2Proof.Claims
set_option Elab.async false

/-! ### WellFormed refuses what the outside world cannot send -/

theorem test_wellFormed_refuses_space_after_mark : Instr.wellFormed (.rxCharacterComplete 0 ⟨0, false, true, true⟩) = false := by decide
theorem test_wellFormed_refuses_short_save_image : Instr.wellFormed (.saveWriteEnd (.bytes [0])) = false := by decide
theorem test_wellFormed_refuses_short_power_on_image : Instr.wellFormed (.powerOn false 0 (.bytes [])) = false := by decide
theorem test_wellFormed_refuses_long_pin_reset_image :
    Instr.wellFormed (.pinReset false 0 (.bytes (List.replicate 2925 0))) = false := by decide +kernel
theorem test_wellFormed_takes_a_whole_image :
    Instr.wellFormed (.powerOn true 3 (.bytes (List.replicate 2924 0))) = true := by decide +kernel

/-! ### Worked figures of the manual -/

/-- R29: nine bytes of "123456789" fold from 0xFFFF to 0x29B1. -/
theorem test_digest_of_nine_bytes : foldBytes 0xFFFF [0x31, 0x32, 0x33, 0x34, 0x35, 0x36, 0x37, 0x38, 0x39] = 0x29B1 := by decide +kernel
/-- The table after R41: rate, D8, achieved rate, error. -/
theorem test_divisor_table : ([9600, 100000, 115200, 250000, 1500000, 3000000, 28].map fun r => (d8Of r, achievedOf r, rateErrorOf r)) =
    [(1536, 9600, 0), (147, 100310, 3102), (128, 115200, 0), (59, 249925, -298), (10, 1474560, -16960), (8, 1843200, -385600),
     (524287, 28, 4466)] := by decide +kernel
/-- R39: the ends of the clamps. -/
theorem test_divisor_clamps : (d8Of 1966080, divisorOf 1966081, d8Of 29, divisorOf 28) = (8, 7, 508469, 526629) := by decide +kernel
/-- R41: character bits of 8N1, 7E1, 8O2 and 7N1. -/
theorem test_character_bits : (charBitsOf 8 .noParity 1, charBitsOf 7 .even 1, charBitsOf 8 .odd 2, charBitsOf 7 .noParity 1) =
    (10, 10, 12, 9) := by decide
/-- R190: the image is 2,924 bytes. -/
theorem test_image_length : (State.reset.part.tables.image).length = 2924 := by decide +kernel
/-- R1: an offset before one that wrapped. -/
theorem test_offset_before_wraps : offsetBefore 0xFFFFFFFF 0 = true ∧ offsetBefore 0 0x80000000 = false := by decide

/-! ### A bench -/

/-- A peer with every right, one with OWN and BREAK on ports 0 to 7, and one that may observe port 1. -/
def admin : Peer :=
  { valid := true, mac := 1, peerId := 1, mask := BitVec.allOnes 48, maxRole := .take, signalRight := .all, configure := true
    supervisor := true, collector := true }
def worker : Peer :=
  { valid := true, mac := 2, peerId := 2, mask := 0xFF, maxRole := .own, signalRight := .breakOnly, configure := false
    supervisor := false, collector := false }
def watcher : Peer :=
  { valid := true, mac := 3, peerId := 3, mask := 2, maxRole := .observe, signalRight := .noSignal, configure := false
    supervisor := false, collector := false }

/-- The part after reset with these three peers. -/
def bench : Part := ((State.reset.part.setPeer 0 admin).setPeer 1 worker).setPeer 2 watcher

/-- A port that runs with the default entry. -/
def live : Port := { Port.initial .default with portState := .active, lines := ⟨.assert, .assert, .deassert⟩ }

/-- A session of peer `i` on port 1. -/
def onPort1 (i : PeerNo) (role : Role) : Session := { Session.free with state := .active, peer := i, tag := 9, port := 1, role }

/-- Port 1 runs; session 0 of the admin owns it and session 1 of the worker observes it. -/
def desk : Part := ((bench.setPort 1 live).setSession 0 (onPort1 0 .owner)).setSession 1 (onPort1 1 .observer)

/-- A frame from peer `i`, and the request the Decoder makes of it when the part stands as `e`. -/
def frameOf (i : PeerNo) (kind session : Byte) (body : List Byte) : RelayFrame :=
  { source := BitVec.ofNat 48 (i.val + 1), kind, peerId := BitVec.ofNat 16 (i.val + 1), tag := 7, session, body }
def requestOf (e : Part) (i : PeerNo) (kind session : Byte) (body : List Byte) : Request :=
  entryRights (frameOf i kind session body) 0 i (e.peer i)

/-- The frame stands at the head of the Receive FIFO. -/
def ask (e : Part) (i : PeerNo) (kind session : Byte) (body : List Byte) : State :=
  { State.reset with uplink := { State.reset.uplink with rxFifo := [frameOf i kind session body] }, part := e }

/-- The request passes the Decoder as a request of the row. -/
abbrev Asked (e : Part) (i : PeerNo) (r : RequestRow) (kind session : Byte) (body : List Byte) : Prop :=
  Passes (ask e i kind session body) r (frameOf i kind session body) 0 (requestOf e i kind session body)

theorem passes_iff {s : State} {r : RequestRow} {f : RelayFrame} {k : SlotNo} {c : Request} :
    Passes s r f k c ↔ s.nextFrame = some (f, k) ∧ r.takes f = true ∧ s.part.openRequest f k = some c ∧
      s.part.decoderRefusal r f c = none :=
  ⟨fun h => ⟨h.taken, h.row, h.peer, h.checks⟩, fun h => ⟨h.1, h.2.1, h.2.2.1, h.2.2.2⟩⟩

/-- The next state of a command; the state itself where there is none. -/
def after (i : Instr) (s : State) : State :=
  match exec i s with
  | .next t => t
  | .fault _ => s
  | .refused _ => s

/-- The desk with the given port 1. -/
def withPort1 (x : Port) : State := { State.reset with part := desk.setPort 1 x }

/-- The code and the data of the reply formed in slot 0. -/
def replyOf (s : State) : Option (ResultCode × List Byte) :=
  match s.part.slot 0 with
  | .formed _ code data => some (code, data)
  | .free => none
  | .reserved _ => none

/-! ### One step of each kind -/

theorem test_keys_load_the_shift_register :
    let t := after .keys (ask desk 0 4 0 [0x41, 0x42])
    ((t.part.port 1).engine.shift, (t.part.port 1).engine.fifo, (t.part.port 1).keyOffset) =
      (.key 0x41 (some 0), [(0x42, some 0)], 2) ∧ replyOf t = some (.ok, [0, 0, 0, 0, 1, 254]) := by decide +kernel
theorem test_keys_of_an_observer : replyOf (after .keys (ask desk 1 4 1 [0x41])) = some (.notOwner, []) := by decide +kernel
theorem test_key_byte_folds_into_its_digest :
    ((after (.txCharacterComplete 1) (withPort1
      { live with engine := { live.engine with shift := .key 0x31 (some 0) } })).part.session 0).keysDigest = 0xC782 := by
  decide +kernel
theorem test_attach_as_observer :
    let t := after .attach (ask desk 2 2 255 [1, 0, 0, 5, 20, 0, 1, 0, 2])
    ((t.part.session 2).state, (t.part.session 2).weight, (t.part.session 2).idleTimer, (t.part.session 2).queueLimit) =
      (.active, 15, some 5000, 4) ∧
    replyOf t = some (.adjusted, [2, 1, 0, 1, 0, 0, 0, 0, 0, 15, 0, 5, 0, 4]) := by decide +kernel
theorem test_attach_to_own_without_the_right :
    replyOf (after .attach (ask desk 2 2 255 [1, 1, 0, 5, 1, 0, 0, 0, 4])) = some (.noRight, []) := by decide +kernel
theorem test_detach_now_reports : replyOf (after .detachNow (ask desk 0 3 0 [0])) =
    some (.ok, [0, 0, 0xFF, 0xFF, 0xFF, 0xFF, 0, 0, 0, 0, 0, 0, 0, 0]) := by decide +kernel
theorem test_detach_flush_with_an_empty_queue : replyOf (after .detachFlush (ask desk 0 3 0 [1])) =
    some (.ok, [0, 0, 0, 0xFF, 0xFF, 0xFF, 0xFF, 0, 0, 0, 0, 0, 0, 0, 0]) := by decide +kernel
/-- R124: a request taken before the expiry sets the idle timer back, so that the expiry behind it ends nothing; run down, it does. -/
theorem test_request_before_the_idle_expiry_keeps_the_session :
    let idle := desk.setSession 0 { onPort1 0 .owner with idleTimeout := 5, idleTimer := some 0 }
    ((after (.sessionIdleTimeout 0) (after .keys (ask idle 0 4 0 [0x41]))).part.session 0).state = .active ∧
    ((after (.sessionIdleTimeout 0) (ask idle 0 4 0 [0x41])).part.session 0).state = .free := by decide +kernel
theorem test_take_without_take_right_is_busy : replyOf (after .take (ask desk 1 5 1 [])) = some (.busy, []) := by decide +kernel
theorem test_yield_leaves_no_owner :
    (after .yield (ask desk 0 6 0 [])).part.ownerOf 1 = none := by decide +kernel
theorem test_history_of_an_empty_chain : replyOf (after .history (ask desk 0 7 0 [0, 0, 0, 0])) =
    some (.ok, [0, 0, 0, 0, 0, 0, 0, 0, 0, 0, 0]) := by decide +kernel
/-- The worked chain C1 to C5 behind R117, which ends at 10,700: X = 10,100 and 10,700, and R114's ends of the comparison, 2^31 − 1 and
2^31 bytes before the chain's end. -/
theorem test_history_candidates_of_the_worked_chain :
    let s : Part := { desk.setPort 1 { live with chain := [1, 5, 9, 10, 13] } with
      blocks := [(1, 10000, 200), (5, 10200, 256), (9, 10456, 64), (10, 10520, 130), (13, 10650, 50)].map fun (e : Nat × Word32 × Nat) =>
        { id := e.1, kind := .output, port := 1, epoch := 3, start := e.2.1, length := e.2.2, cells := [e.1], marks := 0
          closeReason := some .gap, sender := none, refCount := 1 } }
    ([10100, 10200, 10700, 10700 - 0x7FFFFFFF, 10700 - 0x80000000].map fun x => s.historyCandidates 1 x) =
      [[1, 5, 9, 10, 13], [5, 9, 10, 13], [], [1, 5, 9, 10, 13], []] := by decide +kernel
theorem test_digest_reset_reports_old : replyOf (after .digestReset (ask (desk.setSession 0
    { onPort1 0 .owner with keysDigest := 0x29B1 }) 0 8 0 [])) = some (.ok, [0x29, 0xB1, 0xFF, 0xFF]) := by decide +kernel
theorem test_attention_queues_a_notice :
    ((after .attention (ask desk 0 9 0 [1])).part.notices.map Notice.dst) = [⟨2, 2⟩] := by decide +kernel
theorem test_signal_break_is_clamped :
    ((after .signalBreak (ask (desk.setPort 1 { live with profile := { Profile.default with breakPolicy := .pass } })
      0 0x0A 0 [0, 0, 9])).part.port 1).signal.map (fun g => (g.phase, g.duration)) = some (.space, 10) := by decide +kernel
theorem test_signal_aux_pulse_needs_reset_assist :
    replyOf (after .signalAuxPulse (ask desk 0 0x0A 0 [1, 0, 0])) = some (.badState, []) := by decide +kernel
theorem test_signal_dtr_pulse_moves_dtr :
    ((after .signalDtrPulse (ask desk 0 0x0A 0 [2, 0, 200])).part.port 1).lines.dtr = .deassert := by decide +kernel
theorem test_stage_keeps_the_last_value :
    let t := after .stage (ask desk 0 0x0B 255 [2, 1, 0, 1, 1, 0, 2])
    (t.part.port 1).staging.rts = some .release ∧ replyOf t = some (.ok, [0, 2, 0, 1]) := by decide +kernel
theorem test_apply_skips_an_auto_line :
    let t := after .apply (ask (desk.setPort 1 { live with staging := ⟨some .release, none, none⟩ }) 0 0x0C 255
      [0, 0, 0, 0, 0, 0, 0, 2])
    (t.part.port 1).lines.rts = .assert ∧ replyOf t = some (.ok, [0, 0, 1, 1, 0, 2, 0, 0, 1]) := by decide +kernel
theorem test_enable_raises_the_epoch : replyOf (after .portControlEnable (ask bench 0 0x0E 255 [47, 0])) = some (.ok, [1, 1]) := by
  decide +kernel
theorem test_disable_ends_sessions :
    ((after .portControlDisable (ask desk 0 0x0E 255 [1, 1])).part.session 1).state = .free := by decide +kernel
theorem test_reset_keeps_a_disabled_port_disabled :
    replyOf (after .portControlReset (ask bench 0 0x0E 255 [47, 2])) = some (.ok, [0, 1]) := by decide +kernel
theorem test_clear_reports_both : replyOf (after .clear (ask (desk.setPort 1 { live with conditions := 0x205 }) 0 0x0F 255
    [1, 2, 1])) = some (.ok, [2, 5, 0, 4]) := by decide +kernel
theorem test_resume_needs_local_hold : replyOf (after .resume (ask desk 0 0x10 255 [1])) = some (.badState, []) := by decide +kernel
theorem test_load_peer_refuses_a_second_identity :
    replyOf (after .loadPeer (ask desk 0 0x11 255 ([0, 5] ++ worker.bytes))) = some (.badValue, []) := by decide +kernel
theorem test_load_profile_is_adjusted :
    (replyOf (after .loadProfile (ask bench 0 0x11 255 ([1, 3] ++ { Profile.default with rate := 3000000 }.bytes)))).map Prod.fst =
      some .adjusted := by decide +kernel
theorem test_load_trigger_stores : ((after .loadTrigger (ask bench 0 0x11 255 ([2, 15] ++
    { Trigger.empty with valid := true, length := 12 }.bytes))).part.trigger 15).length = 12 := by decide +kernel
theorem test_load_tap_needs_a_collector : replyOf (after .loadTap (ask bench 0 0x11 255 ([3, 0] ++
    { TapEntry.empty with enabled := true, collector := 1 }.bytes))) = some (.badValue, []) := by decide +kernel
theorem test_load_system_clamps_the_level : (after .loadSystem (ask bench 0 0x11 255 ([4, 0] ++
    { SystemRecord.initial 0 with burst := 1518 }.bytes))).uplink.level = 1518 := by decide +kernel
theorem test_read_profile_default_derived : (replyOf (after .readProfile (ask bench 0 0x12 255 [1, 0]))).map
    (fun e => e.2.drop 40) = some [0, 0, 6, 0, 0, 0, 0x25, 0x80, 0, 0, 0, 0, 10, 0, 0, 0] := by decide +kernel
theorem test_status_port_is_the_ports : (replyOf (after .statusPort (ask desk 0 0x13 255 [1, 1]))).map (fun e => e.2.take 2) =
    some [1, 0] := by decide +kernel
theorem test_identify_of_a_stranger : replyOf (after .identify (ask State.reset.part 9 1 255 [])) =
    some (.ok, [2, 0x4E, 0x4B, 0, 0, 0, 1, 1, 1]) := by decide +kernel
theorem test_frame_check_failed_is_rejected :
    (after (.frameArrival [] false) State.reset).uplink.rejected = 1 := by decide +kernel
theorem test_save_then_limit : (after .saveTimeout (after .save (ask bench 0 0x14 255 []))).part.imageState = .noImage := by
  decide +kernel
theorem test_save_read_back_unreadable : (after (.saveWriteEnd .silent) (after .save (ask bench 0 0x14 255 []))).part.imageState =
    .noImage := by decide +kernel
theorem test_pin_reset_takes_the_address_straps :
    (after (.pinReset false 5 .silent) State.reset).part.system.station = 0x024E4B000005 := by decide +kernel
theorem test_break_is_counted : ((after (.rxCharacterComplete 1 ⟨0, false, false, true⟩) (withPort1
    { live with engine := { live.engine with receiver := .hunting } })).part.port 1).counters.breaks = 1 := by decide +kernel
theorem test_first_byte_takes_a_cell : ((after (.rxCharacterComplete 1 ⟨0x41, false, true, false⟩)
    { State.reset with part := { desk with freeList := [7, 8] } }).part.block 7).map Block.length = some 1 := by decide +kernel
/-- R35, R36, R37: the cell that brings port_use to pause on makes XOFF go out under SOFT and RTS fall under HARD. -/
theorem test_a_cell_asserts_the_pause :
    let t := fun flow => (after (.rxCharacterComplete 1 ⟨0x41, false, true, false⟩) (withPort1 { live with
      profile := { Profile.default with flow }, portUse := 55, engine := { live.engine with receiver := .hunting } })).part.port 1
    ((t .soft).engine.shift, (t .soft).engine.pause) = (.flow .xoff, .asserted) ∧
    ((t .hard).lines.rts, (t .noFlow).lines.rts) = (.deassert, .assert) := by decide +kernel
theorem test_debounce_starts : ((after (.dsrChange 1 true) { State.reset with part := desk }).part.port 1).debounceTimer =
    some 20 := by decide +kernel
theorem test_token_rise_stops_at_the_burst : (after .shaperTokenRise State.reset).uplink.level = 15180 := by decide +kernel
theorem test_link_down_holds_frames : (after .linkDown State.reset).uplink.link = .down := by decide +kernel
theorem test_idle_step_counts_a_timer : ∃ t, step (withPort1 { live with debounceTimer := some 1 }) =
    .next t ∧ (t.part.port 1).debounceTimer = some 0 := ⟨_, rfl, by decide +kernel⟩

/-! ### Witnesses: the machine, layouts, the Decoder -/

theorem witness_EmptyQueueIsOneMillisecond : State.reset.pending = [] := rfl

/-- A step from reset, and reset in bounds. -/
theorem witness_StoresAndLevelStayWithinBounds :
    (∃ t, step State.reset = .next t) ∧ State.reset.memoryCanonical ∧ State.reset.levelBounded ∧ State.reset.receiveFits ∧
    State.reset.noticesFit ∧ State.reset.keysFit := by
  refine ⟨⟨_, rfl⟩, ?_, ?_, ?_, ?_, ?_⟩
  · exact ⟨List.Pairwise.nil, by simp [State.reset, Part.initial]⟩
  all_goals simp only [State.levelBounded, State.receiveFits, State.noticesFit, State.keysFit]; decide +kernel

theorem desk_sessions : ∀ n, (desk.session n).state ≠ .free → n = 0 ∨ n = 1 := by decide +kernel

theorem desk_owners : ∀ n p, desk.owns n p = true → n = 0 ∧ p = 1 := by
  intro n p h
  simp only [Part.owns, Bool.and_eq_true, bne_iff_ne, ne_eq, beq_iff_eq] at h
  obtain ⟨⟨h, hp⟩, hr⟩ := h
  obtain rfl | rfl := desk_sessions n h
  · exact ⟨rfl, hp.symm⟩
  · exact absurd hr (by decide +kernel)

/-- With the desk's sessions (session 0 owns port 1) on a port 1 that runs outside LOCAL_HOLD, the ownership law holds. -/
theorem desk_portsOwned (e : Part) (hs : e.sessions = desk.sessions) (hd : (e.port 1).portState ≠ .disabled)
    (hl : (e.port 1).portState ≠ .localHold) (u) (l) : State.portsOwned ⟨l, u, e⟩ := by
  have hses : ∀ n, e.session n = desk.session n := fun n => by simp only [Part.session, hs]
  have ho : ∀ n p, e.owns n p = desk.owns n p := fun n p => by simp only [Part.owns, hses]
  refine ⟨?_, ?_, ?_⟩
  · intro n h
    simp only [hses] at h ⊢
    have : (desk.session n).port = 1 := by obtain rfl | rfl := desk_sessions n h <;> decide +kernel
    rwa [this]
  · intro n m p h1 h2
    simp only [ho] at h1 h2
    rw [(desk_owners n p h1).1, (desk_owners m p h2).1]
  · intro n p h
    simp only [ho] at h ⊢
    by_contra hc
    obtain ⟨-, rfl⟩ := desk_owners n p (by simpa using hc)
    exact hl h

/-- With no delayed reply and nothing in transmission, no slot is held wrongly. -/
theorem no_slots_held (e : Part) (hs : ∀ h k, e.slotOf h ≠ some k) (ht : e.transmission = none) (l) (u) : State.slotsHeld ⟨l, u, e⟩ :=
  ⟨fun h k hk => absurd hk (hs h k), fun h _ k hk => absurd hk (hs h k), fun k frame cut h => absurd (ht.symm.trans h) (by simp)⟩

theorem witness_PortsKeepOneOwner :
    State.portsOwned { State.reset with pending := [.sessionIdleTimeout 0], part := desk } ∧
    ∃ t, step { State.reset with pending := [.sessionIdleTimeout 0], part := desk } = .next t :=
  ⟨desk_portsOwned desk rfl (by decide +kernel) (by decide +kernel) _ _, ⟨_, rfl⟩⟩

/-- A DTR pulse in progress on port 1 holds slot 3; a reply stands formed in slot 4. -/
def pulse : Signal :=
  { kind := .dtrPulse, phase := .on, duration := 200, elapsed := 7, session := 0, slot := 3, clamped := false }
def heldHeader : ReqHeader := { source := 1, kind := 0x0A, peerId := 1, tag := 5, session := 0 }
def pulsing : Part :=
  { (((desk.setPort 1 { live with signal := some pulse, lines := { live.lines with dtr := .deassert } }).setSlot 3
      (.reserved heldHeader)).setSlot 4 (.formed heldHeader .ok [])) with formed := [4] }

theorem pulsing_slots : ∀ h k, pulsing.slotOf h = some k → h = .signal 1 ∧ k = 3 := by
  intro h k hk
  cases h with
  | drain n => exact absurd hk (by revert n k; decide +kernel)
  | signal p =>
    have : ∀ p k, pulsing.slotOf (.signal p) = some k → p = 1 ∧ k = 3 := by decide +kernel
    obtain ⟨rfl, rfl⟩ := this p k hk
    exact ⟨rfl, rfl⟩
  | load p => exact absurd hk (by revert p k; decide +kernel)
  | save => exact absurd hk (by revert k; decide +kernel)

theorem pulsing_slotsHeld (l) (u) : State.slotsHeld ⟨l, u, pulsing⟩ := by
  refine ⟨?_, ?_, ?_⟩
  · intro h k hk
    obtain ⟨rfl, rfl⟩ := pulsing_slots h k hk
    exact ⟨heldHeader, rfl⟩
  · intro h h' k hk hk'
    rw [(pulsing_slots h k hk).1, (pulsing_slots h' k hk').1]
  · intro k frame cut h
    exact absurd h (by simp [pulsing, desk, bench, State.reset, Part.initial, Part.setSlot, Part.setSession, Part.setPort, Part.setPeer])

theorem witness_RepliesKeepTheirSlots :
    State.slotsHeld { State.reset with pending := [.pulseExpiry 1], part := pulsing } ∧
    State.repliesOnce { State.reset with pending := [.pulseExpiry 1], part := pulsing } ∧
    ∃ t, step { State.reset with pending := [.pulseExpiry 1], part := pulsing } = .next t := by
  refine ⟨pulsing_slotsHeld _ _, ⟨by decide, fun k => ⟨fun h => ?_, ?_⟩⟩, ⟨_, rfl⟩⟩
  · have : k = 4 := by simpa [pulsing] using h
    subst this
    exact ⟨heldHeader, .ok, [], rfl⟩
  · rintro ⟨h, code, data, hk⟩
    have : ∀ k, (match pulsing.slot k with | .formed _ _ _ => true | .free => false | .reserved _ => false) = true → k ∈ pulsing.formed := by
      decide +kernel
    exact this k (by rw [show pulsing.slot k = .formed h code data from hk])

theorem reset_cellsOnce (l) (u) (e : Part) (hf : e.freeList = List.range Config.cellCount) (hb : e.blocks = []) : State.cellsOnce ⟨l, u, e⟩ := by
  have h : e.cellsListed = List.range Config.cellCount := by simp [Part.cellsListed, hf, hb]
  refine ⟨?_, ?_, ?_⟩
  · show e.cellsListed.Nodup
    rw [h]
    exact List.nodup_range
  · intro c hc
    rw [show e.cellsListed = _ from h] at hc
    exact List.mem_range.mp hc
  · intro b hb'
    rw [show e.blocks = [] from hb] at hb'
    exact absurd hb' List.not_mem_nil

theorem desk_free : desk.freeList = List.range Config.cellCount := by
  simp only [desk, bench, State.reset, Part.initial, Part.setSession, Part.setPort, Part.setPeer]

theorem witness_CellsStandOnce :
    State.cellsOnce { State.reset with pending := [.rxCharacterComplete 1 ⟨0x41, false, true, false⟩], part := desk } ∧
    State.cellsConserved { State.reset with pending := [.rxCharacterComplete 1 ⟨0x41, false, true, false⟩], part := desk } ∧
    ∃ t, step { State.reset with pending := [.rxCharacterComplete 1 ⟨0x41, false, true, false⟩], part := desk } = .next t := by
  refine ⟨reset_cellsOnce _ _ desk desk_free rfl, ?_, ⟨_, rfl⟩⟩
  show desk.cellsListed.length = Config.cellCount
  simp [Part.cellsListed, desk_free, show desk.blocks = [] from rfl]

theorem desk_allowed : desk.tables.allowed := by
  refine ⟨?_, ?_, ?_, ?_, ?_, ?_⟩ <;> decide +kernel

theorem desk_tablesAllowed (l) (u) : State.tablesAllowed ⟨l, u, desk⟩ := by
  refine ⟨desk_allowed, fun p k h => ?_⟩
  have : ∀ p, (desk.port p).pendingLoad = none := by decide +kernel
  exact absurd ((this p).symm.trans h) (by simp)

theorem witness_TablesStayAllowed :
    State.tablesAllowed { ask desk 0 0x11 255 ([0, 5] ++ Peer.empty.bytes) with pending := [.loadPeer] } ∧
    ∃ t, step { ask desk 0 0x11 255 ([0, 5] ++ Peer.empty.bytes) with pending := [.loadPeer] } = .next t :=
  ⟨desk_tablesAllowed _ _, ⟨_, rfl⟩⟩

theorem witness_LevelEpochsAndTablesChangeOnlyByRule :
    (∃ t, exec .linkUp State.reset = .next t) ∧ (∃ t, exec .portControlEnable (ask bench 0 0x0E 255 [47, 0]) = .next t) ∧
    (∃ t, exec (.powerOn false 0 .silent) (ask desk 0 1 255 []) = .next t) ∧
    Instr.linkUp ≠ .dataFrameBegin ∧ Instr.linkUp ≠ .controlFrameBegin ∧ Instr.linkUp ≠ .shaperTokenRise ∧
    Instr.linkUp ≠ .loadSystem ∧ Instr.linkUp ≠ .restart ∧ (∀ a b f, Instr.linkUp ≠ .powerOn a b f) ∧
    (∀ a b f, Instr.linkUp ≠ .pinReset a b f) ∧ Instr.linkUp ≠ .loadPeer ∧ Instr.linkUp ≠ .loadTrigger :=
  ⟨⟨_, rfl⟩, ⟨_, rfl⟩, ⟨_, rfl⟩, by decide, by decide, by decide, by decide, by decide, fun _ _ _ => by simp, fun _ _ _ => by simp,
    by decide, by decide⟩

theorem witness_RelayFramesDecodeAsLaidOut :
    (frameOf 0 4 0 (List.replicate 1490 0x41)).body.length ≤ 1490 ∧ (List.replicate 4 (0 : Byte)).length = 4 ∧
    (0x024E4B000000 : Mac) ≠ broadcast ∧ (frameOf 0 1 255 []).kind = 0x01 := by decide +kernel

/-- A trigger, a tap and a system record whose fields stand at the ends of their ranges. -/
def longTrigger : Trigger := { valid := true, length := 12, pattern := Vector.replicate 12 0x0A, actions := 7, markGroup := 7 }
def widestTap : TapEntry :=
  { enabled := true, collector := 31, direction := .both, portMask := 0xFFFFFFFFFFFF, peerFilter := some 31, markedOnly := .yes
    groupMask := 0xFF, weight := 15, queueLimit := 255 }
def fastest : SystemRecord := { station := 0x024E4B000001, rate := 12500, burst := 65535, supervisor := some 31 }

theorem witness_RecordsReadBackAsWritten :
    (∀ e ∈ [longTrigger, { longTrigger with valid := false, length := 255 }],
      (e.valid = true → 1 ≤ e.length ∧ e.length ≤ 12) ∧ e.length ≤ 255 ∧ e.markGroup ≤ 7 ∧ e.actions.toNat < 8 ∧
      ∀ k : Fin 12, e.length ≤ k.val → e.pattern[k] = 0) ∧
    (widestTap.inRange = true ∧ 1 ≤ widestTap.weight ∧ widestTap.weight ≤ 15 ∧ 4 ≤ widestTap.queueLimit ∧
      widestTap.queueLimit ≤ 255) ∧
    (fastest.station ≠ 0 ∧ fastest.station.getLsbD 40 = false ∧ 1 ≤ fastest.rate ∧ fastest.rate ≤ 12500 ∧ 1518 ≤ fastest.burst ∧
      fastest.burst ≤ 65535) ∧
    Profile.ofBytes Profile.default.bytes = some (.default, false) := by decide +kernel

theorem witness_SavedImageLoadsBack : desk.tables.allowed := desk_allowed

/-- Every slot taken: by replies that are still reserved. -/
def noSlots : Part := { desk with slots := Vector.replicate 32 (.reserved heldHeader) }

theorem witness_UntakenAndUnknownFramesChangeNothingElse :
    State.reset.uplink.rxFifo = [] ∧ (∀ k, (ask noSlots 0 4 0 [1]).part.slot k ≠ .free) ∧
    ((ask desk 0 4 0 [1]).uplink.rxFifo = [frameOf 0 4 0 [1]] ∧ takeRow.takes (frameOf 0 4 0 [1]) = false ∧
      knownKind (frameOf 0 4 0 [1]).kind.toNat = true ∧ (frameOf 0 4 0 [1]).kind ≠ 0x01) ∧
    ((ask desk 3 4 0 [1]).nextFrame = some (frameOf 3 4 0 [1], 0) ∧ desk.commissioning = false ∧
      (∀ i, ¬((desk.peer i).valid = true ∧ (desk.peer i).mac = (frameOf 3 4 0 [1]).source ∧
        (desk.peer i).peerId = (frameOf 3 4 0 [1]).peerId)) ∧ keysRow.takes (frameOf 3 4 0 [1]) = true) ∧
    ((ask desk 3 0x16 0 [1]).nextFrame = some (frameOf 3 0x16 0 [1], 0) ∧ knownKind (frameOf 3 0x16 0 [1]).kind.toNat = false) := by
  decide +kernel

/-- The desk while commissioning is on. -/
def open_ : Part := { desk with commissioning := true }

/-- Frames of two entries and of none, commissioning off and on; KEYS with no byte, PORT_CONTROL by a peer without configure, KEYS on a
session of another peer. -/
theorem witness_RefusedRequestsOnlyAnswer :
    (∀ e ∈ [desk, open_],
      (∀ i ∈ [(0 : PeerNo), 1], ((e.peer i).valid = true ∧ (e.peer i).mac = (frameOf i 4 0 []).source ∧ (e.peer i).peerId = (frameOf i 4 0 []).peerId) ∧
        ∀ j, j < i → ¬((e.peer j).valid = true ∧ (e.peer j).mac = (frameOf i 4 0 []).source ∧ (e.peer j).peerId = (frameOf i 4 0 []).peerId)) ∧
      ∀ i, ¬((e.peer i).valid = true ∧ (e.peer i).mac = (frameOf 3 4 0 []).source ∧ (e.peer i).peerId = (frameOf 3 4 0 []).peerId)) ∧
    desk.commissioning = false ∧ open_.commissioning = true ∧
    ((ask desk 0 4 0 []).nextFrame = some (frameOf 0 4 0 [], 0) ∧ desk.openRequest (frameOf 0 4 0 []) 0 = some (requestOf desk 0 4 0 []) ∧
      keysRow.takes (frameOf 0 4 0 []) = true ∧ keysRow.fits (frameOf 0 4 0 []) = false) ∧
    ((ask desk 1 0x0E 0 [1, 0]).nextFrame = some (frameOf 1 0x0E 0 [1, 0], 0) ∧
      desk.openRequest (frameOf 1 0x0E 0 [1, 0]) 0 = some (requestOf desk 1 0x0E 0 [1, 0]) ∧
      (portControlRow 0).takes (frameOf 1 0x0E 0 [1, 0]) = true ∧ (portControlRow 0).fits (frameOf 1 0x0E 0 [1, 0]) = true ∧
      (requestOf desk 1 0x0E 0 [1, 0]).hasRight .configureRight = false) ∧
    ((ask desk 0 4 1 [1]).nextFrame = some (frameOf 0 4 1 [1], 0) ∧
      desk.openRequest (frameOf 0 4 1 [1]) 0 = some (requestOf desk 0 4 1 [1]) ∧ keysRow.fits (frameOf 0 4 1 [1]) = true ∧
      (requestOf desk 0 4 1 [1]).hasRight keysRow.right = true ∧ sessionChecked keysRow.session (requestOf desk 0 4 1 [1]) = true ∧
      (requestOf desk 0 4 1 [1]).peer ≠ some (desk.session (requestOf desk 0 4 1 [1]).session).peer) ∧
    ((ask desk 0 4 64 [1]).nextFrame = some (frameOf 0 4 64 [1], 0) ∧ 64 ≤ (frameOf 0 4 64 [1]).session.toNat) := by
  and_intros <;> decide +kernel

/-- A frame of 64 bytes, the shortest that is taken: an IDENTIFY to the broadcast address. -/
def shortest : List Byte :=
  List.replicate 6 0xFF ++ [0, 0, 0, 0, 0, 9] ++ [0x88, 0xB5, 1, 1, 0, 9, 0, 7, 0xFF, 0, 0, 0] ++ List.replicate 40 0

theorem witness_ArrivalIsCheckedAndPlaced :
    (shortest.length = 64 ∧ acceptFrame State.reset.part.system.station (shortest.take 63) true = none) ∧
    (acceptFrame State.reset.part.system.station shortest true = some { frameOf 8 1 255 [] with tag := 7 } ∧
      State.reset.uplink.rxFifo.length < 16) ∧
    16 ≤ ({ State.reset.uplink with rxFifo := List.replicate 16 (frameOf 0 4 0 [1]) } : UplinkPort).rxFifo.length := by decide +kernel

theorem witness_IdentifyAndUnknownKindsAreAnswered :
    (∀ kind ∈ [(0 : Byte), 0x16, 0xFF], (ask desk 0 kind 255 []).nextFrame = some (frameOf 0 kind 255 [], 0) ∧
      desk.openRequest (frameOf 0 kind 255 []) 0 = some (requestOf desk 0 kind 255 []) ∧
      ((frameOf 0 kind 255 []).kind.toNat = 0 ∨ 0x15 < (frameOf 0 kind 255 []).kind.toNat)) ∧
    (∀ body ∈ [([] : List Byte), [0]], (ask desk 7 1 255 body).nextFrame = some (frameOf 7 1 255 body, 0) ∧
      (frameOf 7 1 255 body).kind = 0x01) := by decide +kernel

/-! ### Witnesses: sessions -/

/-- The desk with another port 1, another session 0, or another queue of session 0. -/
def withPort (x : Port) : Part := desk.setPort 1 x
def withSession (x : Session) : Part := desk.setSession 0 x
def queued : Part := { desk.setQueue 0 [{ block := 7, history := false }] with
  blocks := [{ id := 7, kind := .output, port := 1, epoch := 0, start := 0, length := 5, cells := [7], marks := 0,
               closeReason := some .gap, sender := none, refCount := 1 }] }
/-- Eight sessions of the admin on port 1, and a part with no FREE session. -/
def eight : Part := { desk with sessions := Vector.ofFn fun k => if k.val < 8 then onPort1 0 .observer else .free }
def crowded : Part := { desk with sessions := Vector.replicate 64 (onPort1 2 .observer) }
def held : Part := withPort { live with portState := .localHold }
def own : List Byte := [1, 1, 0, 5, 15, 0, 0, 0, 4]
def look : List Byte := [1, 0, 0, 5, 1, 0x0E, 0x10, 0, 255]

theorem witness_AttachIsCheckedAndSetsUpTheSession :
    (Asked desk 0 attachRow 2 255 [48, 0, 0, 5, 1, 0, 0, 0, 4] ∧ 48 ≤ (requestOf desk 0 2 255 [48, 0, 0, 5, 1, 0, 0, 0, 4]).byte 0) ∧
    (Asked desk 0 attachRow 2 255 [1, 2, 0, 5, 1, 0, 0, 0, 4] ∧ 2 ≤ (requestOf desk 0 2 255 [1, 2, 0, 5, 1, 0, 0, 0, 4]).byte 1) ∧
    (Asked desk 2 attachRow 2 255 own ∧ (requestOf desk 2 2 255 own).byte 0 = (1 : PortNo).val ∧
      (requestOf desk 2 2 255 own).byte 1 = 1 ∧ (requestOf desk 2 2 255 own).maxRole = .observe) ∧
    (Asked desk 1 attachRow 2 255 [8, 0, 0, 5, 1, 0, 0, 0, 4] ∧
      (requestOf desk 1 2 255 [8, 0, 0, 5, 1, 0, 0, 0, 4]).byte 0 = (8 : PortNo).val ∧
      (requestOf desk 1 2 255 [8, 0, 0, 5, 1, 0, 0, 0, 4]).mayUse 8 = false) ∧
    (Asked bench 0 attachRow 2 255 own ∧ (requestOf bench 0 2 255 own).peer = some 0 ∧ (requestOf bench 0 2 255 own).mayUse 1 = true ∧
      (requestOf bench 0 2 255 own).maxRole ≠ .observe ∧ (bench.port 1).portState = .disabled) ∧
    (Asked held 0 attachRow 2 255 own ∧ (requestOf held 0 2 255 own).byte 1 = 1 ∧ (held.port 1).portState = .localHold) ∧
    (Asked crowded 0 attachRow 2 255 look ∧ (crowded.port 1).portState ≠ .disabled ∧ ∀ n, (crowded.session n).state ≠ .free) ∧
    (Asked eight 0 attachRow 2 255 look ∧ (eight.port 1).portState ≠ .disabled ∧ 8 ≤ (eight.sessionsOf 0).length) ∧
    (∀ i ∈ [(0 : PeerNo), 1], Asked desk i attachRow 2 255 own ∧ (requestOf desk i 2 255 own).peer = some i ∧
      (requestOf desk i 2 255 own).byte 0 = (1 : PortNo).val ∧ (requestOf desk i 2 255 own).byte 1 ≤ 1 ∧
      (requestOf desk i 2 255 own).mayUse 1 = true ∧ (desk.port 1).portState ≠ .disabled ∧
      (requestOf desk i 2 255 own).maxRole ≠ .observe ∧ (desk.port 1).portState ≠ .localHold ∧ (desk.session 2).state = .free ∧
      (∀ m, m < 2 → (desk.session m).state ≠ .free) ∧ (desk.sessionsOf i).length < 8 ∧ desk.ownerOf 1 = some 0 ∧
      ((requestOf desk i 2 255 own).mayTake 1 = true ↔ i = 0)) ∧
    (Asked desk 2 attachRow 2 255 look ∧ (requestOf desk 2 2 255 look).peer = some 2 ∧ (requestOf desk 2 2 255 look).byte 1 ≤ 1 ∧
      (requestOf desk 2 2 255 look).mayUse 1 = true ∧ (desk.sessionsOf 2).length < 8) ∧
    (Asked (bench.setPort 1 live) 0 attachRow 2 255 own ∧ ((bench.setPort 1 live).session 0).state = .free ∧
      (bench.setPort 1 live).ownerOf 1 = none) := by
  and_intros <;> try simp only [Asked, passes_iff]
  all_goals decide +kernel

/-- Session 0 drains with its reply in slot 3. -/
def draining : Part := (withSession { onPort1 0 .observer with
  state := .draining, drainTimer := some 10000, drainSlot := some 3 }).setSlot 3 (.reserved heldHeader)

theorem draining_slotsHeld (l) (u) : State.slotsHeld ⟨l, u, draining⟩ := by
  have hs : ∀ h k, draining.slotOf h = some k → h = .drain 0 ∧ k = 3 := by
    intro h k hk
    cases h with
    | drain n =>
      have : ∀ n k, draining.slotOf (.drain n) = some k → n = 0 ∧ k = 3 := by decide +kernel
      obtain ⟨rfl, rfl⟩ := this n k hk
      exact ⟨rfl, rfl⟩
    | signal p => exact absurd hk (by revert p k; decide +kernel)
    | load p => exact absurd hk (by revert p k; decide +kernel)
    | save => exact absurd hk (by revert k; decide +kernel)
  refine ⟨?_, ?_, ?_⟩
  · intro h k hk
    obtain ⟨rfl, rfl⟩ := hs h k hk
    exact ⟨heldHeader, rfl⟩
  · intro h h' k hk hk'
    rw [(hs h k hk).1, (hs h' k hk').1]
  · intro k frame cut h
    exact absurd h (by simp [draining, withSession, desk, bench, State.reset, Part.initial, Part.setSlot, Part.setSession, Part.setPort,
      Part.setPeer])

theorem queued_slots : ∀ h k, queued.slotOf h ≠ some k := by
  intro h k
  cases h with
  | drain n => revert n k; decide +kernel
  | signal p => revert p k; decide +kernel
  | load p => revert p k; decide +kernel
  | save => revert k; decide +kernel

theorem witness_DetachEndsOrDrainsTheSession :
    (Asked draining 0 (detachRow 0) 3 0 [0] ∧ (ask draining 0 3 0 [0]).slotsHeld) ∧
    (Asked draining 0 (detachRow 1) 3 0 [1] ∧ (draining.session 0).state = .draining) ∧
    (Asked desk 0 (detachRow 1) 3 0 [1] ∧ (desk.session 0).state = .active ∧ desk.queue (sessionQueue 0) = []) ∧
    (Asked queued 0 (detachRow 1) 3 0 [1] ∧ (queued.session 0).state = .active ∧ queued.queue (sessionQueue 0) ≠ []) ∧
    (Asked queued 0 (detachRow 0) 3 0 [0] ∧ queued.waitList = [] ∧ ((queued.queue (sessionQueue 0)).map Ref.block).count 7 = 1 ∧
      (queued.block 7).map Block.refCount = some 1) ∧ (ask queued 0 3 0 [0]).slotsHeld := by
  refine ⟨⟨?_, draining_slotsHeld _ _⟩, ?_, ?_, ?_, ?_, no_slots_held queued queued_slots rfl _ _⟩ <;> and_intros <;> try simp only [Asked, passes_iff]
  all_goals decide +kernel

/-- The Transmit FIFO of port 1 holds `n` bytes. -/
def fifoOf (n : Nat) : Part :=
  withPort { live with engine := { live.engine with fifo := List.replicate n (0x41, some 0), shift := .flow .xon } }

theorem witness_KeysAreCheckedInOrder :
    (Asked draining 0 keysRow 4 0 [0x41] ∧ (draining.session 0).state ≠ .active) ∧
    (Asked held 0 keysRow 4 0 [0x41] ∧ (held.session 0).state = .active ∧ (held.port 1).portState = .localHold) ∧
    (Asked desk 1 keysRow 4 1 [0x41] ∧ (desk.port 1).portState ≠ .localHold ∧ desk.owns 1 1 = false) ∧
    (Asked (withPort { live with portState := .reconfig }) 0 keysRow 4 0 [0x41] ∧
      (withPort { live with portState := .reconfig }).owns 0 1 = true) ∧
    (Asked (fifoOf 511) 0 keysRow 4 0 [0x41, 0x42] ∧ ((fifoOf 511).port 1).portState ≠ .localHold ∧
      ((fifoOf 511).port 1).portState ≠ .reconfig ∧ (fifoOf 511).owns 0 1 = true ∧
      512 - ((fifoOf 511).port 1).engine.fifo.length < [0x41, 0x42].length) := by
  and_intros <;> try simp only [Asked, passes_iff]
  all_goals decide +kernel

theorem witness_KeysEnterTheFifoWhole :
    Asked (fifoOf 511) 0 keysRow 4 0 [0x41] ∧ ((fifoOf 511).session 0).state = .active ∧
    ((fifoOf 511).port 1).portState ≠ .localHold ∧ ((fifoOf 511).port 1).portState ≠ .reconfig ∧ (fifoOf 511).owns 0 1 = true ∧
    [0x41].length ≤ 512 - ((fifoOf 511).port 1).engine.fifo.length ∧ (∀ t, ¬takesKeys (fifoOf 511) t 1 0) := by
  simp only [takesKeys, ← Option.mem_def]
  and_intros <;> try simp only [Asked, passes_iff]
  all_goals decide +kernel

/-- Taps 2 and 3 watch the keys of port 1; the tap reserve has room, or stands full. -/
def keyTap : Tap := { Tap.empty with entry := { TapEntry.empty with enabled := true, direction := .keys, portMask := 2 } }
def tapped : Part := (desk.setTap 2 keyTap).setTap 3 keyTap
def tappedFull : Part := { tapped with tapUse := 64 }
def filtered : Part := desk.setTap 3 { keyTap with entry := { keyTap.entry with peerFilter := some 1 } }

theorem tapped_sound (l) (u) (e : Part) (hm : e.mem = []) (hf : e.freeList = desk.freeList) (hb : e.blocks = []) :
    State.memoryCanonical ⟨l, u, e⟩ ∧ State.cellsOnce ⟨l, u, e⟩ := by
  refine ⟨?_, reset_cellsOnce _ _ _ (hf.trans desk_free) hb⟩
  show Memory.wf e.mem
  rw [hm]
  exact ⟨List.Pairwise.nil, by simp⟩

theorem witness_KeyCopyHoldsTheSubmission :
    (Asked tapped 0 keysRow 4 0 [0x41] ∧ (ask tapped 0 4 0 [0x41]).memoryCanonical ∧ (ask tapped 0 4 0 [0x41]).cellsOnce) ∧
    ((tapped.session 0).state = .active ∧ (tapped.port 1).portState ≠ .localHold ∧ (tapped.port 1).portState ≠ .reconfig ∧
      tapped.owns 0 1 = true ∧ [0x41].length ≤ 512 - (tapped.port 1).engine.fifo.length ∧ takesKeys tapped 3 1 0 ∧
      (∀ t', 3 < t' → ¬takesKeys tapped t' 1 0) ∧ tapped.tapUse + 1 ≤ 64 ∧ 1 ≤ tapped.freeList.length ∧
      (tapped.queue (tapQueue 3)).length < 4) ∧
    (Asked tappedFull 0 keysRow 4 0 [0x41] ∧ (ask tappedFull 0 4 0 [0x41]).memoryCanonical ∧ (ask tappedFull 0 4 0 [0x41]).cellsOnce) ∧
    (takesKeys tappedFull 3 1 0 ∧ ¬(tappedFull.tapUse + 1 ≤ 64)) ∧ ¬takesKeys filtered 3 1 0 := by
  simp only [takesKeys, ← Option.mem_def]
  refine ⟨⟨?_, tapped_sound _ _ tapped rfl (by simp only [tapped, Part.setTap]) rfl⟩, ?_, ⟨?_, tapped_sound _ _ tappedFull rfl (by simp only [tappedFull, tapped, Part.setTap]) rfl⟩, ?_⟩ <;>
    and_intros <;> try simp only [Asked, passes_iff]
  all_goals decide +kernel

/-- Session 0 observes, so port 1 has no owner. -/
def ownerless : Part := withSession (onPort1 0 .observer)
def ownerlessHeld : Part := held.setSession 0 (onPort1 0 .observer)

theorem witness_TakeAndYieldMoveOwnership :
    (Asked draining 0 takeRow 5 0 [] ∧ (draining.session 0).state = .draining) ∧
    (Asked desk 0 takeRow 5 0 [] ∧ (desk.session 0).state = .active ∧ desk.ownerOf 1 = some 0) ∧
    (Asked ownerlessHeld 0 takeRow 5 0 [] ∧ ownerlessHeld.ownerOf 1 ≠ some 0 ∧ (ownerlessHeld.port 1).portState = .localHold) ∧
    (Asked (desk.setSession 2 (onPort1 2 .observer)) 2 takeRow 5 2 [] ∧
      (requestOf (desk.setSession 2 (onPort1 2 .observer)) 2 5 2 []).mayOwn 1 = false) ∧
    (Asked ownerless 0 takeRow 5 0 [] ∧ (requestOf ownerless 0 5 0 []).mayOwn 1 = true ∧ ownerless.ownerOf 1 = none) ∧
    (Asked desk 1 takeRow 5 1 [] ∧ (requestOf desk 1 5 1 []).mayOwn 1 = true ∧ desk.ownerOf 1 = some 0 ∧
      (requestOf desk 1 5 1 []).mayTake 1 = false) ∧
    (Asked (desk.setSession 2 (onPort1 0 .observer)) 0 takeRow 5 2 [] ∧
      (desk.setSession 2 (onPort1 0 .observer)).ownerOf 1 = some 0 ∧
      (requestOf (desk.setSession 2 (onPort1 0 .observer)) 0 5 2 []).mayTake 1 = true) ∧
    (Asked draining 0 yieldRow 6 0 [] ∧ Asked desk 1 yieldRow 6 1 [] ∧ desk.owns 1 1 = false ∧ (desk.session 1).state = .active) ∧
    (Asked desk 0 yieldRow 6 0 [] ∧ desk.owns 0 1 = true ∧ (desk.session 0).state = .active) ∧ (ask desk 0 6 0 []).portsOwned := by
  refine ⟨?_, ?_, ?_, ?_, ?_, ?_, ?_, ?_, ?_, desk_portsOwned desk rfl (by decide +kernel) (by decide +kernel) _ _⟩ <;>
    and_intros <;> try simp only [Asked, passes_iff]
  all_goals decide +kernel

/-- Two blocks of history stand in the Output Chain of port 1, and one of them in session 0's queue. -/
def recorded : Part := { withPort { live with chain := [7, 8], streamOffset := 9, portUse := 2 } with
  queues := desk.queues.set 0 [{ block := 7, history := false }]
  blocks :=
    [{ id := 7, kind := .output, port := 1, epoch := 0, start := 0, length := 5, cells := [7], marks := 0, closeReason := some .gap
       sender := none, refCount := 2 },
     { id := 8, kind := .output, port := 1, epoch := 0, start := 5, length := 4, cells := [8], marks := 0, closeReason := some .gap
       sender := none, refCount := 1 }] }

theorem witness_HistoryRefillsTheQueue :
    (Asked draining 0 historyRow 7 0 [0, 0, 0, 0] ∧ (draining.session 0).state = .draining) ∧
    (Asked recorded 0 historyRow 7 0 [0, 0, 0, 4] ∧ (recorded.session 0).state = .active ∧
      ((clearQueue (sessionQueue 0) (claimed (ask recorded 0 7 0 [0, 0, 0, 4]) historyRow (frameOf 0 7 0 [0, 0, 0, 4]) 0
        (requestOf recorded 0 7 0 [0, 0, 0, 4]))).port 1).chain.Nodup) := by
  and_intros <;> try simp only [Asked, passes_iff]
  all_goals decide +kernel

theorem witness_DigestResetReturnsOldDigests : Asked desk 0 digestResetRow 8 0 [] := by
  simp only [Asked, passes_iff]
  decide +kernel

def anyNotice : Notice := { dst := ⟨1, 1⟩, body := .attention 1 0 0 1 9, lost := false, marks := none }

theorem witness_AttentionMarksItsTarget :
    (Asked desk 0 attentionRow 9 0 [64] ∧ 64 ≤ (requestOf desk 0 9 0 [64]).byte 0) ∧
    (Asked desk 0 attentionRow 9 0 [63] ∧ (requestOf desk 0 9 0 [63]).byte 0 = (63 : SessionNo).val ∧ (desk.session 63).state = .free) ∧
    (Asked (desk.setSession 1 { onPort1 1 .observer with attention := true }) 0 attentionRow 9 0 [1] ∧
      ((desk.setSession 1 { onPort1 1 .observer with attention := true }).session 1).attention = true) ∧
    (Asked { desk with notices := List.replicate 32 anyNotice } 0 attentionRow 9 0 [1] ∧
      32 ≤ ({ desk with notices := List.replicate 32 anyNotice } : Part).notices.length ∧ (desk.session 1).attention = false) ∧
    (Asked { desk with notices := List.replicate 31 anyNotice } 0 attentionRow 9 0 [1] ∧
      ({ desk with notices := List.replicate 31 anyNotice } : Part).notices.length < 32 ∧ (desk.session 1).state ≠ .free) := by
  and_intros <;> try simp only [Asked, passes_iff]
  all_goals decide +kernel

/-! ### Witnesses: lines, staging, snapshots, a port's life -/

def passing : Port := { live with profile := { Profile.default with breakPolicy := .pass, auxUse := .resetAssist } }
def workerOwns : Part := (bench.setPort 1 live).setSession 1 (onPort1 1 .owner)

theorem witness_SignalsBeginOnTheirLines :
    (∀ e ∈ signalRows, Asked draining 0 e.2.2 0x0A 0 [BitVec.ofNat 8 e.2.1.code, 0, 10] ∧ (draining.session 0).state = .draining) ∧
    (∀ e ∈ signalRows, Asked held 0 e.2.2 0x0A 0 [BitVec.ofNat 8 e.2.1.code, 0, 10] ∧ (held.port 1).portState = .localHold ∧
      (held.session 0).state = .active) ∧
    (∀ e ∈ signalRows, Asked desk 1 e.2.2 0x0A 1 [BitVec.ofNat 8 e.2.1.code, 0, 10] ∧ (desk.port 1).portState ≠ .localHold ∧
      desk.owns 1 1 = false) ∧
    (∀ e ∈ signalRows, Asked (withPort { live with portState := .reconfig }) 0 e.2.2 0x0A 0 [BitVec.ofNat 8 e.2.1.code, 0, 10] ∧
      ((withPort { live with portState := .reconfig }).port 1).portState = .reconfig) ∧
    (Asked workerOwns 1 (signalRow 1) 0x0A 1 [1, 0, 0] ∧ (requestOf workerOwns 1 0x0A 1 [1, 0, 0]).signalRight ≠ .all) ∧
    (Asked desk 0 (signalRow 0) 0x0A 0 [0, 0, 10] ∧ (desk.port 1).profile.breakPolicy = .refuse) ∧
    (Asked desk 0 (signalRow 1) 0x0A 0 [1, 0, 10] ∧ (desk.port 1).profile.auxUse ≠ .resetAssist) ∧
    (Asked (withPort { live with profile := { Profile.default with dtrControl := .manual } }) 0 (signalRow 2) 0x0A 0 [2, 0, 10] ∧
      ((withPort { live with profile := { Profile.default with dtrControl := .manual } }).port 1).profile.dtrControl ≠ .auto) ∧
    (Asked (withPort { passing with signal := some pulse }) 0 (signalRow 2) 0x0A 0 [2, 0, 10] ∧
      ((withPort { passing with signal := some pulse }).port 1).signal ≠ none) ∧
    (∀ e ∈ signalRows, ∀ d ∈ [(9 : Byte), 10], Asked (withPort passing) 0 e.2.2 0x0A 0 [BitVec.ofNat 8 e.2.1.code, 0, d] ∧
      ((withPort passing).session 0).state = .active ∧ ((withPort passing).port 1).portState ≠ .localHold ∧
      ((withPort passing).port 1).portState ≠ .reconfig ∧ (withPort passing).owns 0 1 = true ∧
      ((withPort passing).port 1).signal = none ∧ ((withPort passing).port 1).profile.breakPolicy ≠ .refuse ∧
      ((withPort passing).port 1).profile.auxUse = .resetAssist ∧ ((withPort passing).port 1).profile.dtrControl = .auto ∧
      (requestOf (withPort passing) 0 0x0A 0 [BitVec.ofNat 8 e.2.1.code, 0, d]).signalRight = .all) := by
  and_intros <;> try simp only [Asked, passes_iff]
  all_goals decide +kernel

def stageAll : List StageEntry := List.replicate 144 { port := 47, line := .aux, value := .release }
def stageBody (l : List StageEntry) : List Byte :=
  BitVec.ofNat 8 l.length :: l.flatMap fun e => [BitVec.ofNat 8 e.port.val, BitVec.ofNat 8 e.line.code, BitVec.ofNat 8 e.value.code]

theorem witness_StageWritesInListOrder :
    (Asked desk 0 stageRow 0x0B 255 [0] ∧ numAt (requestOf desk 0 0x0B 255 [0]).body 0 1 = 0) ∧
    (Asked desk 0 stageRow 0x0B 255 (145 :: List.replicate 435 0) ∧
      144 < numAt (requestOf desk 0 0x0B 255 (145 :: List.replicate 435 0)).body 0 1) ∧
    (∀ l ∈ [[(1 : Byte), 48, 0, 0], [1, 0, 3, 0], [1, 0, 0, 3]], Asked desk 0 stageRow 0x0B 255 l) ∧
    (Asked desk 1 stageRow 0x0B 255 (stageBody [{ port := 1, line := .rts, value := .assert }]) ∧
      (requestOf desk 1 0x0B 255 (stageBody [{ port := 1, line := .rts, value := .assert }])).configure = false ∧
      desk.peerOwns (requestOf desk 1 0x0B 255 (stageBody [{ port := 1, line := .rts, value := .assert }])) 1 = false) ∧
    (Asked desk 0 stageRow 0x0B 255 (stageBody stageAll) ∧ stageAll.length = 144 ∧
      numAt (requestOf desk 0 0x0B 255 (stageBody stageAll)).body 0 1 = 144 ∧
      (requestOf desk 0 0x0B 255 (stageBody stageAll)).configure = true ∧
      ∀ j : Fin 144, ((stageBody stageAll).drop (1 + 3 * j)).take 3 = [47, 2, 2]) := by
  and_intros <;> try simp only [Asked, passes_iff]
  all_goals decide +kernel

theorem witness_ApplyMakesStagedValuesLive :
    (Asked desk 0 applyRow 0x0C 255 [0, 1, 0, 0, 0, 0, 0, 0] ∧ 2 ^ 48 ≤ numAt (requestOf desk 0 0x0C 255 [0, 1, 0, 0, 0, 0, 0, 0]).body 0 8) ∧
    (Asked desk 0 applyRow 0x0C 255 [0, 0, 255, 255, 255, 255, 255, 255] ∧
      numAt (requestOf desk 0 0x0C 255 [0, 0, 255, 255, 255, 255, 255, 255]).body 0 8 < 2 ^ 48) := by
  and_intros <;> try simp only [Asked, passes_iff]
  all_goals decide +kernel

theorem witness_SnapshotReplacesTheLast :
    Asked desk 0 snapshotRow 0x0D 255 [] ∧ Asked desk 1 snapshotRow 0x0D 1 [] ∧ Asked desk 0 restartRow 0x15 255 [] ∧
    desk.imageState ≠ .saving := by
  and_intros <;> try simp only [Asked, passes_iff]
  all_goals decide +kernel

/-- A DISABLED port 1 whose account stands at the pause threshold. -/
def fullPort : Part := bench.setPort 1 { Port.initial .default with portUse := 56 }

theorem witness_EnableStartsANewRun :
    (Asked bench 0 (portControlRow 0) 0x0E 255 [48, 0] ∧ 48 ≤ (requestOf bench 0 0x0E 255 [48, 0]).byte 0) ∧
    (Asked desk 0 (portControlRow 0) 0x0E 255 [1, 0] ∧ (requestOf desk 0 0x0E 255 [1, 0]).byte 0 = (1 : PortNo).val ∧
      (desk.port 1).portState ≠ .disabled) ∧
    (Asked bench 0 (portControlRow 0) 0x0E 255 [47, 0] ∧ (requestOf bench 0 0x0E 255 [47, 0]).byte 0 = (47 : PortNo).val ∧
      (bench.port 47).portState = .disabled ∧ (bench.port 47).portUse < (bench.port 47).profile.pauseOn) ∧
    (Asked fullPort 0 (portControlRow 0) 0x0E 255 [1, 0] ∧ (fullPort.port 1).portState = .disabled ∧
      (fullPort.port 1).profile.pauseOn ≤ (fullPort.port 1).portUse) := by
  and_intros <;> try simp only [Asked, passes_iff]
  all_goals decide +kernel

/-- Port 1 at the end of its share, its byte waiting for the cell of block 7, which only session 0's queue holds; block 8 stands in the
Output Chain, and in tap 3's queue too. -/
def parting : Part := { withPort { live with
    chain := [8], streamOffset := 9, portUse := 64, engine := { live.engine with receiver := .hunting, slot := some 0x41 } } with
  queues := (desk.queues.set 0 [{ block := 7, history := false }]).set 67 [{ block := 8, history := false }]
  blocks :=
    [{ id := 7, kind := .output, port := 1, epoch := 0, start := 0, length := 5, cells := [7], marks := 0, closeReason := some .gap
       sender := none, refCount := 1 },
     { id := 8, kind := .output, port := 1, epoch := 0, start := 5, length := 4, cells := [8], marks := 0, closeReason := some .gap
       sender := none, refCount := 2 }] }

theorem parting_slotsHeld (l) (u) : State.slotsHeld ⟨l, u, parting⟩ := by
  refine no_slots_held parting (fun h k => ?_) rfl l u
  cases h with
  | drain n => revert n k; decide +kernel
  | signal p => revert p k; decide +kernel
  | load p => revert p k; decide +kernel
  | save => revert k; decide +kernel

theorem witness_DisableReleasesThePort :
    (Asked bench 0 (portControlRow 1) 0x0E 255 [48, 1] ∧ 48 ≤ (requestOf bench 0 0x0E 255 [48, 1]).byte 0) ∧
    (Asked bench 0 (portControlRow 1) 0x0E 255 [47, 1] ∧ (requestOf bench 0 0x0E 255 [47, 1]).byte 0 = (47 : PortNo).val ∧
      (bench.port 47).portState = .disabled) ∧
    (Asked pulsing 0 (portControlRow 1) 0x0E 255 [1, 1] ∧ (requestOf pulsing 0 0x0E 255 [1, 1]).byte 0 = (1 : PortNo).val ∧
      (pulsing.port 1).portState ≠ .disabled ∧ pulsing.supervisor = none ∧
      pulsing.notices.length + (pulsing.sessionsOn 1).length ≤ 32 ∧ EndReason.portDisabled.event = some .portDisabled) ∧
    (ask pulsing 0 0x0E 255 [1, 1]).slotsHeld ∧
    (Asked parting 0 (portControlRow 1) 0x0E 255 [1, 1] ∧ (parting.port 1).portState ≠ .disabled ∧ parting.waitList = [] ∧
      holdsReleased 1 parting 7 = 1 ∧ holdsReleased 1 parting 8 = 1 ∧ holdsReleased 1 parting 9 = 0 ∧
      (parting.block 7).map Block.refCount = some 1 ∧ (parting.block 8).map Block.refCount = some 2) ∧
    (ask parting 0 0x0E 255 [1, 1]).slotsHeld := by
  refine ⟨?_, ?_, ?_, pulsing_slotsHeld _ _, ?_, parting_slotsHeld _ _⟩ <;> and_intros <;> try simp only [Asked, passes_iff]
  all_goals decide +kernel

/-- Port 1 runs with its account at the pause threshold. -/
def gripped : Part := withPort { live with portUse := 56 }

theorem gripped_slots : ∀ h k, gripped.slotOf h ≠ some k := by
  intro h k
  cases h with
  | drain n => revert n k; decide +kernel
  | signal p => revert p k; decide +kernel
  | load p => revert p k; decide +kernel
  | save => revert k; decide +kernel

theorem witness_ResetClearsThePort :
    (Asked bench 0 (portControlRow 2) 0x0E 255 [48, 2] ∧ 48 ≤ (requestOf bench 0 0x0E 255 [48, 2]).byte 0) ∧
    (∀ p ∈ [(1 : Byte), 47], Asked pulsing 0 (portControlRow 2) 0x0E 255 [p, 2] ∧ (requestOf pulsing 0 0x0E 255 [p, 2]).byte 0 = p.toNat) ∧
    ((pulsing.port 1).portState ≠ .disabled ∧ (pulsing.port 47).portState = .disabled) ∧
    (Asked gripped 0 (portControlRow 2) 0x0E 255 [1, 2] ∧ (gripped.port 1).portState ≠ .disabled ∧
      (gripped.port 1).profile.pauseOn ≤ (gripped.port 1).portUse ∧
      (paused (started { gripped.port 1 with conditions := 0, lines := .allDeassert })).engine.pause = .asserted) ∧
    (ask pulsing 0 0x0E 255 [1, 2]).slotsHeld ∧ (ask pulsing 0 0x0E 255 [47, 2]).slotsHeld ∧ (ask gripped 0 0x0E 255 [1, 2]).slotsHeld := by
  refine ⟨?_, ?_, ?_, ?_, pulsing_slotsHeld _ _, pulsing_slotsHeld _ _, no_slots_held gripped gripped_slots rfl _ _⟩ <;> and_intros <;> try simp only [Asked, passes_iff]
  all_goals decide +kernel

/-- Port 1 has a supervisor to tell and its mask names every condition; a first break sets RX_BREAK. -/
def watched : Part := { withPort { live with profile := { Profile.default with noticeMask := 0x3FF } } with
  system := { State.reset.part.system with supervisor := some 0 } }

theorem witness_ClearReportsBeforeAndAfter :
    ((ask desk 0 0x0F 255 [1, 4, 0]).nextFrame = some (frameOf 0 0x0F 255 [1, 4, 0], 0) ∧
      desk.openRequest (frameOf 0 0x0F 255 [1, 4, 0]) 0 = some (requestOf desk 0 0x0F 255 [1, 4, 0]) ∧
      2 ^ 10 ≤ numAt (frameOf 0 0x0F 255 [1, 4, 0]).body 1 2) ∧
    (∀ i ∈ [(0 : PeerNo), 1], ∀ p ∈ [(1 : Byte), 47, 48],
      (ask desk i 0x0F 255 [p, 3, 255]).nextFrame = some (frameOf i 0x0F 255 [p, 3, 255], 0) ∧
      desk.openRequest (frameOf i 0x0F 255 [p, 3, 255]) 0 = some (requestOf desk i 0x0F 255 [p, 3, 255]) ∧
      numAt (frameOf i 0x0F 255 [p, 3, 255]).body 1 2 < 2 ^ 10 ∧
      ((requestOf desk i 0x0F 255 [p, 3, 255]).configure = true ↔ i = 0) ∧ (requestOf desk i 0x0F 255 [p, 3, 255]).byte 0 = p.toNat) ∧
    (hasCondition (watched.port 1).conditions .rxBreak = false ∧ hasCondition (watched.port 1).profile.noticeMask .rxBreak = true ∧
      watched.supervisor = some ⟨1, 1⟩ ∧ watched.notices.length < 32) := by
  and_intros <;> decide +kernel

/-- Port 1 is in LOCAL_HOLD: with presence gone, with presence there, and with a flushed load that waits. -/
def present : Part := withPort { live with portState := .localHold, dsrDebounced := true, profile := { Profile.default with presenceSource := .dsr } }
def waitingLoad : PendingLoad := { entry := .default, adjusted := false, slot := 3, flushed := some 0 }
def heldLoad : Part := withPort { live with portState := .localHold, pendingLoad := some waitingLoad }

theorem witness_ResumeReturnsToActive :
    (Asked held 0 resumeRow 0x10 255 [48] ∧ 48 ≤ (requestOf held 0 0x10 255 [48]).byte 0) ∧
    (Asked held 2 resumeRow 0x10 255 [1] ∧ (requestOf held 2 0x10 255 [1]).configure = false ∧
      (requestOf held 2 0x10 255 [1]).maxRole = .observe) ∧
    (Asked desk 1 resumeRow 0x10 255 [1] ∧ (requestOf desk 1 0x10 255 [1]).mask.getLsbD (1 : PortNo).val = true ∧
      (requestOf desk 1 0x10 255 [1]).maxRole = .own ∧ (desk.port 1).portState ≠ .localHold) ∧
    (Asked heldLoad 0 resumeRow 0x10 255 [1] ∧ (heldLoad.port 1).portState = .localHold ∧ (heldLoad.port 1).pendingLoad ≠ none) ∧
    (Asked present 0 resumeRow 0x10 255 [1] ∧ (present.port 1).portState = .localHold ∧ (present.port 1).pendingLoad = none ∧
      (present.port 1).profile.presenceSource = .dsr ∧ (present.port 1).dsrDebounced = true) ∧
    (Asked held 0 resumeRow 0x10 255 [1] ∧ (requestOf held 0 0x10 255 [1]).configure = true ∧ (held.port 1).portState = .localHold ∧
      (held.port 1).pendingLoad = none ∧ (held.port 1).dsrDebounced = false) := by
  and_intros <;> try simp only [Asked, passes_iff]
  all_goals decide +kernel

/-! ### Witnesses: tables -/

def saving : Part := { desk with imageState := .saving, save := some { image := [], slot := 3, timer := 1 }
                                 slots := desk.slots.set 3 (.reserved heldHeader) }

theorem witness_LoadsAreCheckedInOrder :
    (∀ e ∈ [((0 : Byte), loadRow 0 20, 20), (1, loadRow 1 40, 40), (2, loadRow 2 16, 16), (3, loadRow 3 20, 20), (4, loadRow 4 12, 12)],
      Asked saving 0 e.2.1 0x11 255 ([e.1, 0] ++ List.replicate e.2.2 0) ∧ saving.imageState = .saving) ∧
    (∀ e ∈ [((0 : Byte), (32 : Byte), loadRow 0 20, 20), (1, 48, loadRow 1 40, 40), (2, 16, loadRow 2 16, 16), (3, 4, loadRow 3 20, 20)],
      Asked desk 0 e.2.2.1 0x11 255 ([e.1, e.2.1] ++ List.replicate e.2.2.2 0) ∧
      (requestOf desk 0 0x11 255 ([e.1, e.2.1] ++ List.replicate e.2.2.2 0)).byte 1 = e.2.1.toNat) ∧
    (∀ e ∈ loadRows.zip [((0 : Byte), (31 : Byte), 20), (1, 47, 40), (2, 15, 16), (3, 3, 20), (4, 255, 12)],
      Asked desk 0 e.1.2.1 0x11 255 ([e.2.1, e.2.2.1] ++ List.replicate e.2.2.2 0xFF) ∧
      (requestOf desk 0 0x11 255 ([e.2.1, e.2.2.1] ++ List.replicate e.2.2.2 0xFF)).byte 1 < e.1.2.2.1 ∧
      e.1.2.2.2 (List.replicate e.2.2.2 0xFF) = false) ∧ desk.imageState ≠ .saving ∧
    Profile.ofBytes Profile.default.bytes = some (.default, false) ∧ TapEntry.ofBytes widestTap.bytes = some (widestTap, false) := by
  and_intros <;> try simp only [Asked, passes_iff]
  all_goals decide +kernel

/-- Commissioning is on; a session of the watcher, who may only observe and only port 1, owns port 1, and another is on port 5. -/
def loose : Part := { ((desk.setSession 0 (onPort1 2 .owner)).setSession 2 { onPort1 2 .observer with port := 5 }) with
  commissioning := true, commissioningStrap := true, peers := desk.peers.set 0 { admin with configure := false } }

/-- LOAD PEER: a taken identity; an identity change, rights that fall, an entry not valid either way; the end of commissioning. -/
def commissioned : Part := { desk with commissioning := true, commissioningStrap := true, peers := desk.peers.set 0 { admin with configure := false } }

theorem witness_LoadPeerReplacesTheEntry :
    (Asked desk 0 (loadRow 0 20) 0x11 255 ([0, 31] ++ worker.bytes) ∧
      (requestOf desk 0 0x11 255 ([0, 31] ++ worker.bytes)).byte 1 = (31 : PeerNo).val ∧
      Peer.ofBytes ((requestOf desk 0 0x11 255 ([0, 31] ++ worker.bytes)).body.drop 2) = some worker ∧
      ∃ j, j ≠ 31 ∧ worker.valid = true ∧ (desk.peer j).valid = true ∧ (desk.peer j).mac = worker.mac ∧ (desk.peer j).peerId = worker.peerId) ∧
    (∀ e ∈ [{ admin with mac := 77 }, { admin with mask := 1, maxRole := .observe, supervisor := false, collector := false }],
      Asked pulsing 0 (loadRow 0 20) 0x11 255 ([0, 0] ++ e.bytes) ∧
      Peer.ofBytes ((requestOf pulsing 0 0x11 255 ([0, 0] ++ e.bytes)).body.drop 2) = some e ∧ pulsing.commissioning = false ∧
      ∀ j : PeerNo, j ≠ 0 → ¬(e.valid = true ∧ (pulsing.peer j).valid = true ∧ (pulsing.peer j).mac = e.mac ∧ (pulsing.peer j).peerId = e.peerId)) ∧
    (Asked pulsing 0 (loadRow 0 20) 0x11 255 ([0, 31] ++ Peer.empty.bytes) ∧
      Peer.ofBytes ((requestOf pulsing 0 0x11 255 ([0, 31] ++ Peer.empty.bytes)).body.drop 2) = some .empty ∧
      (pulsing.peer 31).valid = false) ∧
    (ask pulsing 0 0x11 255 ([0, 0] ++ { admin with mac := 77 }.bytes)).slotsHeld ∧
    (commissioned.openRequest (frameOf 1 0x11 255 ([0, 5] ++ { admin with mac := 77 }.bytes)) 0 =
        some (fullRights (frameOf 1 0x11 255 ([0, 5] ++ { admin with mac := 77 }.bytes)) 0 (some 1)) ∧
      (after .loadPeer (ask commissioned 1 0x11 255 ([0, 5] ++ { admin with mac := 77 }.bytes))).part.commissioning = false) ∧
    (let t := (after .loadPeer (ask commissioned 1 0x11 255 ([0, 0] ++ { admin with mac := 77, configure := false }.bytes))).part;
      t.commissioning = true ∧ t.session 0 = .free ∧ t.notices.map Notice.dst = [⟨1, 1⟩]) ∧
    (let t := (after .loadPeer (ask loose 1 0x11 255 ([0, 5] ++ { admin with mac := 77 }.bytes))).part;
      t.commissioning = false ∧ (t.session 0).role = .observer ∧ t.session 2 = .free ∧ t.notices.map Notice.dst = [⟨3, 3⟩, ⟨3, 3⟩]) ∧
    (Asked draining 0 (loadRow 0 20) 0x11 255 ([0, 0] ++ { admin with mac := 77 }.bytes) ∧ (draining.session 0).drainSlot = some 3 ∧
      draining.slot 3 = .reserved heldHeader) ∧
    (ask draining 0 0x11 255 ([0, 0] ++ { admin with mac := 77 }.bytes)).slotsHeld ∧
    (pulsing.system.supervisor = none ∧ pulsing.notices.length + 2 ≤ 32) := by
  refine ⟨?_, ?_, ?_, pulsing_slotsHeld _ _, ?_, ?_, ?_, ?_, draining_slotsHeld _ _, ?_⟩ <;> and_intros <;> try simp only [Asked, passes_iff]
  all_goals decide +kernel

def loadOne : List Byte := [1, 1] ++ Profile.default.bytes

theorem witness_LoadProfileStoresOrWaits :
    Profile.ofBytes ((requestOf desk 0 0x11 255 loadOne).body.drop 2) = some (.default, false) ∧
    (requestOf desk 0 0x11 255 loadOne).byte 1 = (1 : PortNo).val ∧
    (Asked (withPort { live with portState := .reconfig }) 0 (loadRow 1 40) 0x11 255 loadOne ∧
      ((withPort { live with portState := .reconfig }).port 1).portState = .reconfig) ∧
    (Asked held 0 (loadRow 1 40) 0x11 255 loadOne ∧ (held.port 1).portState = .localHold) ∧
    (Asked (withPort { live with portUse := 1, profile := { Profile.default with reserve := 9 } }) 0 (loadRow 1 40) 0x11 255 loadOne ∧
      accounting (withPort { live with portUse := 1, profile := { Profile.default with reserve := 9 } }) 1 .default = some .inUse) ∧
    (Asked bench 0 (loadRow 1 40) 0x11 255 loadOne ∧ (bench.port 1).portState = .disabled ∧ accounting bench 1 .default = none) ∧
    (Asked (fifoOf 1) 0 (loadRow 1 40) 0x11 255 loadOne ∧ ((fifoOf 1).port 1).portState = .active ∧ ((fifoOf 1).port 1).engine.fifo ≠ [] ∧
      accounting (fifoOf 1) 1 .default = none) ∧
    (Asked desk 0 (loadRow 1 40) 0x11 255 loadOne ∧ (desk.port 1).portState = .active ∧ accounting desk 1 .default = none ∧
      (desk.port 1).engine.fifo = [] ∧ (desk.port 1).engine.shift = .empty ∧ (desk.port 1).engine.pendingFlow = none ∧
      (desk.port 1).signal = none ∧ desk.waitList = [] ∧ desk.imageState ≠ .saving) := by
  and_intros <;> try simp only [Asked, passes_iff]
  all_goals decide +kernel

theorem witness_LoadsOfTriggerAndSystemReplace :
    (Asked desk 0 (loadRow 2 16) 0x11 255 ([2, 15] ++ longTrigger.bytes) ∧
      (requestOf desk 0 0x11 255 ([2, 15] ++ longTrigger.bytes)).byte 1 = (15 : TriggerNo).val ∧
      Trigger.ofBytes ((requestOf desk 0 0x11 255 ([2, 15] ++ longTrigger.bytes)).body.drop 2) = some longTrigger) ∧
    (Asked desk 0 (loadRow 4 12) 0x11 255 ([4, 0] ++ { fastest with burst := 1518 }.bytes) ∧
      SystemRecord.ofBytes ((requestOf desk 0 0x11 255 ([4, 0] ++ { fastest with burst := 1518 }.bytes)).body.drop 2) =
        some { fastest with burst := 1518 } ∧ desk.imageState ≠ .saving) := by
  and_intros <;> try simp only [Asked, passes_iff]
  all_goals decide +kernel

/-- Tap 3 toward the admin, as loaded; and enabled already, with one entry in its queue. -/
def plainTap : TapEntry := { TapEntry.empty with enabled := true, portMask := 2 }
def tapOn : Part := (queued.setTap 3 { entry := plainTap, counters := .zero }).setQueue 67 [{ block := 7, history := false }]

/-- Tap 3 toward the admin with five blocks in its queue, one of them of key bytes. -/
def tapLong : Part := { desk.setTap 3 { entry := { plainTap with queueLimit := 5 }, counters := .zero } with
  queues := desk.queues.set 67 ((List.range 5).map fun k => { block := k, history := false })
  blocks := (List.range 5).map fun k => { id := k, kind := if k = 4 then .keys else .output, port := 1, epoch := 0, start := 0
                                          length := 10, cells := [k], marks := 0, closeReason := none, sender := none, refCount := 1 } }

theorem witness_LoadTapFreshCollector :
    (Asked desk 0 (loadRow 3 20) 0x11 255 ([3, 3] ++ { plainTap with collector := 1 }.bytes) ∧
      TapEntry.ofBytes ((requestOf desk 0 0x11 255 ([3, 3] ++ { plainTap with collector := 1 }.bytes)).body.drop 2) =
        some ({ plainTap with collector := 1 }, false) ∧ (desk.peer (Fin.ofNat 32 1)).collector = false) ∧
    (Asked desk 0 (loadRow 3 20) 0x11 255 ([3, 3] ++ { plainTap with markedOnly := .yes }.bytes) ∧
      ({ plainTap with markedOnly := .yes } : TapEntry).groupMask = 0) ∧
    (∀ e ∈ [desk, tapOn], Asked e 0 (loadRow 3 20) 0x11 255 ([3, 3] ++ plainTap.bytes) ∧
      (requestOf e 0 0x11 255 ([3, 3] ++ plainTap.bytes)).byte 1 = (3 : TapNo).val ∧
      TapEntry.ofBytes ((requestOf e 0 0x11 255 ([3, 3] ++ plainTap.bytes)).body.drop 2) = some (plainTap, false) ∧
      (e.peer (Fin.ofNat 32 0)).valid = true ∧ (e.peer (Fin.ofNat 32 0)).collector = true ∧ plainTap.markedOnly = .no) ∧
    (Asked tapOn 0 (loadRow 3 20) 0x11 255 ([3, 3] ++ TapEntry.empty.bytes) ∧ (tapOn.tap 3).entry.enabled = true ∧
      TapEntry.ofBytes ((requestOf tapOn 0 0x11 255 ([3, 3] ++ TapEntry.empty.bytes)).body.drop 2) = some (.empty, false) ∧
      tapOn.imageState ≠ .saving) ∧
    (Asked tapLong 0 (loadRow 3 20) 0x11 255 ([3, 3] ++ plainTap.bytes) ∧ (tapLong.tap 3).entry.enabled = true ∧
      (tapLong.tap 3).entry.collector = plainTap.collector ∧ plainTap.queueLimit < (tapLong.queue (tapQueue 3)).length ∧
      tapLong.waitList = [] ∧ ((tapLong.queue (tapQueue 3)).map Ref.block).Nodup ∧
      (∀ r ∈ tapLong.queue (tapQueue 3), (tapLong.block r.block).isSome = true) ∧
      ((after .loadTap (ask tapLong 0 0x11 255 ([3, 3] ++ plainTap.bytes))).part.tap 3).counters =
        { TapCounters.zero with copiesDropped := 1, keyGap := 10 }) := by
  and_intros <;> try simp only [Asked, passes_iff]
  all_goals decide +kernel

theorem witness_ReadsReturnTheEntry :
    ∀ e ∈ [((0 : Byte), readRow 0, (32 : Byte)), (1, readRow 1, 48), (2, readRow 2, 16), (3, readRow 3, 4), (4, readRow 4, 255)],
      ∀ i ∈ [(0 : PeerNo), 1], ∀ k ∈ [e.2.2, e.2.2 - 1], Asked desk i e.2.1 0x12 255 [e.1, k] ∧
        (requestOf desk i 0x12 255 [e.1, k]).byte 1 = k.toNat ∧ ((requestOf desk i 0x12 255 [e.1, k]).configure = true ↔ i = 0) ∧
        (requestOf desk 1 0x12 255 [e.1, k]).mask.getLsbD 47 = false ∧ (requestOf desk 1 0x12 255 [e.1, k]).mask.getLsbD 7 = true := by
  simp only [Asked, passes_iff]
  decide +kernel

theorem witness_StatusReportsChangeNothing :
    Asked desk 2 (statusRow 0 .ignored) 0x13 255 [0, 0] ∧
    (∀ p ∈ [(1 : Byte), 47, 48], Asked desk 2 (statusRow 1 .ignored) 0x13 255 [1, p] ∧
      (requestOf desk 2 0x13 255 [1, p]).byte 1 = p.toNat ∧ (requestOf desk 2 0x13 255 [1, p]).configure = false ∧
      ((requestOf desk 2 0x13 255 [1, p]).mask.getLsbD p.toNat = true ↔ p = 1)) ∧
    Asked desk 0 (statusRow 2 .required) 0x13 0 [2, 0] := by
  and_intros <;> try simp only [Asked, passes_iff]
  all_goals decide +kernel

/-! ### Witnesses: the image, the lines -/

theorem witness_SaveWritesAllTables :
    (Asked saving 0 saveRow 0x14 255 [] ∧ saving.imageState = .saving) ∧ (Asked desk 0 saveRow 0x14 255 [] ∧ desk.imageState ≠ .saving) ∧
    (saving.save = some { image := [], slot := 3, timer := 1 } ∧ saving.slot 3 = .reserved heldHeader) ∧ desk.save = none := by
  and_intros <;> try simp only [Asked, passes_iff]
  all_goals decide +kernel

def cutFrame : Transmission := { what := .notice anyNotice true, frame := [0], cut := true }
def onWire : Transmission := { what := .notice anyNotice true, frame := [0], cut := false }

/-- The desk holds no reply slot. -/
theorem desk_slots : ∀ h k, desk.slotOf h ≠ some k := by
  intro h k
  cases h with
  | drain n => revert n k; decide +kernel
  | signal p => revert p k; decide +kernel
  | load p => revert p k; decide +kernel
  | save => revert k; decide +kernel

theorem slotOf_of_transmission (e : Part) (t : Option Transmission) (h : SlotHolder) :
    ({ e with transmission := t } : Part).slotOf h = e.slotOf h := by cases h <;> rfl

/-- With no reply slot held and no reply on the wire, no slot is held wrongly. -/
theorem on_wire_slotsHeld (e : Part) (he : ∀ h k, e.slotOf h ≠ some k) (t : Option Transmission)
    (ht : ∀ k frame cut, t ≠ some ⟨.reply k, frame, cut⟩) (l) (u) : State.slotsHeld ⟨l, u, { e with transmission := t }⟩ :=
  ⟨fun h k hk => absurd hk (slotOf_of_transmission e t h ▸ he h k), fun h _ k hk => absurd hk (slotOf_of_transmission e t h ▸ he h k),
    fun k frame cut h => absurd h (ht k frame cut)⟩

theorem witness_RestartDropsTrafficKeepsTables :
    (Asked saving 0 restartRow 0x15 255 [] ∧ saving.imageState = .saving) ∧
    (Asked desk 0 restartRow 0x15 255 [] ∧ desk.imageState ≠ .saving) ∧
    (ask desk 0 0x15 255 []).tablesAllowed ∧ (ask desk 0 0x15 255 []).slotsHeld ∧
    (ask { desk with transmission := some onWire } 0 0x15 255 []).slotsHeld := by
  refine ⟨?_, ?_, desk_tablesAllowed _ _, ?_, ?_⟩
  · and_intros <;> try simp only [Asked, passes_iff]
    all_goals decide +kernel
  · and_intros <;> try simp only [Asked, passes_iff]
    all_goals decide +kernel
  · exact no_slots_held desk desk_slots rfl _ _
  · exact on_wire_slotsHeld desk desk_slots (some onWire) (fun _ _ _ => by simp [onWire]) _ _

theorem desk_image_passes : (loadImage desk.tables.image).isSome = true := by
  rw [image_is_sealed, loadImage_sealed _ (by decide +kernel), if_pos (by decide +kernel)]
  decide +kernel

theorem witness_StartUpTakesImageOrDefaults :
    (∃ i, (i = Instr.powerOn true 15 (.bytes desk.tables.image) ∨ i = .pinReset true 15 (.bytes desk.tables.image))) ∧
    (desk.imageState ≠ .saving ∧ ∃ t, loadImage desk.tables.image = some t) ∧
    (saving.imageState = .saving ∧ desk.flash = none) :=
  ⟨⟨_, .inr rfl⟩, ⟨by decide +kernel, Option.isSome_iff_exists.mp desk_image_passes⟩, by decide +kernel, by decide +kernel⟩

/-- Engines in the four cases of a load: a flow character, a byte held back by the console or by CTS, a byte free to go. -/
def sending (x : Port) (fifo : List (Byte × Option SessionNo)) (flow : Option FlowChar) : Port :=
  { x with engine := { x.engine with fifo := fifo, pendingFlow := flow } }
def soft : Port := { live with profile := { Profile.default with flow := .soft } }
def hard : Port := { live with profile := { Profile.default with flow := .hard } }
def shifting (x : Port) : Port := { x with engine := { x.engine with shift := .key 0xB1 (some 0) } }
def idleLoad : PendingLoad := { waitingLoad with flushed := none }
def loading : Port := shifting { live with portState := .reconfig, reconfigTimer := some 1, pendingLoad := some idleLoad }

/-- A flushed load waits on port 1 with its new entry finding presence asserted, while a DTR pulse runs on: the load's reply and the
signal's have slots 5 and 3, and a supervisor is set. -/
def presenceLoad : PendingLoad :=
  { waitingLoad with slot := 5, entry := { Profile.default with presenceSource := .dsr, noticeMask := 0x3FF } }
def met (shift : ShiftReg) : Part :=
  { ((withPort { live with
      profile := { Profile.default with noticeMask := 0x3FF }, portState := .reconfig, reconfigTimer := some 0, dsrDebounced := true
      pendingLoad := some presenceLoad, signal := some pulse, lines := { live.lines with dtr := .deassert }
      engine := { live.engine with shift } }).setSlot 3 (.reserved heldHeader)).setSlot 5 (.reserved heldHeader) with
    system := { State.reset.part.system with supervisor := some 0 } }

theorem met_slots (shift : ShiftReg) (hs : shift = .empty ∨ shift = .flow .xon) :
    ∀ h k, (met shift).slotOf h = some k → (h = .signal 1 ∧ k = 3) ∨ (h = .load 1 ∧ k = 5) := by
  intro h k hk
  cases h with
  | drain n => exact absurd hk (by obtain rfl | rfl := hs <;> revert n k <;> decide +kernel)
  | signal p =>
    have : ∀ p k, (met shift).slotOf (.signal p) = some k → p = 1 ∧ k = 3 := by obtain rfl | rfl := hs <;> decide +kernel
    obtain ⟨rfl, rfl⟩ := this p k hk
    exact .inl ⟨rfl, rfl⟩
  | load p =>
    have : ∀ p k, (met shift).slotOf (.load p) = some k → p = 1 ∧ k = 5 := by obtain rfl | rfl := hs <;> decide +kernel
    obtain ⟨rfl, rfl⟩ := this p k hk
    exact .inr ⟨rfl, rfl⟩
  | save => exact absurd hk (by obtain rfl | rfl := hs <;> revert k <;> decide +kernel)

theorem met_slotsHeld (shift : ShiftReg) (hs : shift = .empty ∨ shift = .flow .xon) (l) (u) : State.slotsHeld ⟨l, u, met shift⟩ := by
  refine ⟨?_, ?_, ?_⟩
  · intro h k hk
    obtain ⟨rfl, rfl⟩ | ⟨rfl, rfl⟩ := met_slots shift hs h k hk
    all_goals exact ⟨heldHeader, rfl⟩
  · intro h h' k hk hk'
    obtain ⟨rfl, e⟩ | ⟨rfl, e⟩ := met_slots shift hs h k hk <;> obtain ⟨rfl, e'⟩ | ⟨rfl, e'⟩ := met_slots shift hs h' k hk'
    · rfl
    · exact absurd (e.symm.trans e') (by decide)
    · exact absurd (e.symm.trans e') (by decide)
    · rfl
  · intro k frame cut h
    have : (met shift).transmission = none := rfl
    exact absurd (this.symm.trans h) (by simp)

/-- The character in the register completes, and the load comes to its moment under a signal that presence then ends. -/
theorem witness_CharactersBringFlushedLoads :
    ((met (.flow .xon)).port 1).engine.shift ≠ .empty ∧ ((met (.flow .xon)).port 1).pendingLoad = some presenceLoad ∧
    (met (.flow .xon)).waitList = [] ∧ presenceLoad.flushed ≠ none ∧ ((met (.flow .xon)).port 1).signal = some pulse ∧
    State.slotsHeld { State.reset with part := met (.flow .xon) } ∧ metByPresence 1 presenceLoad (met (.flow .xon)) := by
  refine ⟨?_, ?_, ?_, ?_, ?_, met_slotsHeld _ (.inr rfl) _ _, ?_⟩ <;> decide +kernel

theorem witness_CharactersLoadLeaveAndFold :
    ((Port.initial .default).portState = .disabled ∧ (shifting live).engine.shift ≠ .empty ∧
      ({ live with signal := some { pulse with kind := .breakSignal } } : Port).signalIs .breakSignal = true) ∧
    (live.portState ≠ .disabled ∧ live.engine.shift = .empty ∧ live.signalIs .breakSignal = false) ∧
    ((sending live [] (some .xon)).engine.pendingFlow = some .xon ∧ (sending soft [] (some .xoff)).engine.pendingFlow = some .xoff ∧
      (sending soft [] (some .xoff)).profile.flow = .soft) ∧
    ((sending hard [(0x41, none)] none).engine.fifo = (0x41, none) :: [] ∧ (sending hard [(0x41, none)] none).profile.flow = .hard ∧
      (sending hard [(0x41, none)] none).pins.cts = false) ∧
    ((sending live [(0x41, none)] none).engine.fifo = (0x41, none) :: [] ∧ (sending live [(0x41, none)] none).profile.flow = .noFlow) ∧
    (live.engine.fifo = [] ∧ live.engine.pendingFlow = none) ∧
    ((desk.port 1).engine.shift = .empty ∧ ((withPort (shifting live)).port 1).engine.shift ≠ .empty ∧
      ((withPort (shifting live)).port 1).pendingLoad = none) ∧
    (((withPort loading).port 1).engine.shift ≠ .empty ∧ ((withPort loading).port 1).pendingLoad = some idleLoad ∧
      ((withPort loading).port 1).signal = none ∧ (withPort loading).waitList = [] ∧ ((withPort loading).port 1).portState = .reconfig ∧
      ((withPort loading).port 1).engine.fifo = [] ∧ ((withPort loading).port 1).engine.pendingFlow = none) ∧
    (((withPort (shifting { live with portState := .localHold, pendingLoad := some waitingLoad })).port 1).pendingLoad = some waitingLoad ∧
      waitingLoad.flushed ≠ none) ∧
    (((withPort (sending loading [(0x41, none)] none)).port 1).engine.shift ≠ .empty ∧ idleLoad.flushed = none ∧
      ((withPort (sending loading [(0x41, none)] none)).port 1).pendingLoad = some idleLoad ∧
      ((withPort (sending loading [(0x41, none)] none)).port 1).engine.fifo ≠ []) := by
  and_intros <;> decide +kernel

/-- A load that comes to its moment: refused and applied; the XON owed on leaving SOFT, the XOFF on entering it with the account at the
pause threshold, XOFF not sent again where it was sent last, and RTS under HARD. -/
theorem witness_LoadFinished :
    accounting (withPort { loading with portUse := 1, profile := { Profile.default with reserve := 9 } }) 1 .default = some .inUse ∧
    (accounting (withPort loading) 1 .default = none ∧ loading.portState ≠ .disabled ∧ Profile.default.pauseOff < Profile.default.pauseOn ∧
      loading.signal = none ∧ (withPort loading).chainCells 1 ≤ Profile.default.historyLimit) ∧
    (accounting (met .empty) 1 presenceLoad.entry = none ∧ metByPresence 1 presenceLoad (met .empty) ∧ (met .empty).slot 5 = .reserved heldHeader ∧
      ((met .empty).port 1).signal = some pulse ∧ (met .empty).slot pulse.slot = .reserved heldHeader ∧ (met .empty).owns 0 1 = true ∧
      (∀ n, (met .empty).owns n 1 = true → n = 0) ∧ ((met .empty).port 1).portState ≠ .disabled) ∧
    (presenceLoad.entry.pauseOff < presenceLoad.entry.pauseOn ∧ (met .empty).chainCells 1 ≤ presenceLoad.entry.historyLimit) ∧
    (takenUp { soft with engine := { live.engine with lastFlow := .xoff } } .default).engine.pendingFlow = some .xon ∧
    (takenUp { live with portUse := 56 } soft.profile).engine.shift = .flow .xoff ∧
    (takenUp { live with portUse := 56, engine := { live.engine with pause := .asserted } } soft.profile).engine.pendingFlow = some .xoff ∧
    (takenUp { live with portUse := 56 } hard.profile).lines.rts = .deassert := by
  and_intros <;> decide +kernel

/-- A hunting receiver, with the given profile and holding slot. -/
def hunting (profile : Profile) (slot : Option Byte) : Port :=
  { live with profile := profile, engine := { live.engine with receiver := .hunting, slot := slot } }
def evenDrop : Profile := { Profile.default with parity := .even, errorPolicy := .drop }

theorem witness_ReceivedCharactersAreClassified :
    ((bench.port 1).portState = .disabled ∧ ((withPort { live with pins := ⟨false, false, false⟩ }).port 1).engine.receiver = .waitMark ∧
      ((withPort { live with pins := ⟨false, false, false⟩ }).port 1).pins.rxd = false) ∧
    (((withPort (hunting .default none)).port 1).portState ≠ .disabled ∧ ((withPort (hunting .default none)).port 1).engine.receiver ≠ .waitMark) ∧
    ((⟨0, true, false, true⟩ : RxSample).stopMark = false ∧ (⟨0, true, false, true⟩ : RxSample).stillSpace = true ∧
      Profile.default.parity = .noParity) ∧
    (((withPort (hunting evenDrop none)).port 1).profile.errorPolicy = .drop ∧ ((withPort (hunting evenDrop none)).port 1).profile.parity = .even ∧
      ((List.range 8).foldl (fun n j => n + ((1 : Byte).getLsbD j).toNat) 0 + false.toNat) % 2 = 1) ∧
    (((withPort (hunting .default (some 0x41))).port 1).profile.errorPolicy = .keep ∧
      ((withPort (hunting .default (some 0x41))).port 1).engine.slot ≠ none ∧ (⟨0, false, false, false⟩ : RxSample).stillSpace = false) ∧
    (∀ b ∈ [(0x11 : Byte), 0x13], ((withPort (hunting soft.profile none)).port 1).profile.flow = .soft ∧
      (⟨b, false, true, false⟩ : RxSample).stopMark = true ∧ (b = 0x11 ∨ b = 0x13)) ∧
    (((withPort (hunting .default (some 0x41))).port 1).profile.flow ≠ .soft ∧ (⟨0x11, false, true, false⟩ : RxSample).stopMark = true) := by
  and_intros <;> decide +kernel

/-- Port 1 with an open block of `n` bytes in cells 7 onward, and free cells 20 and 21. -/
def openAt (n : Nat) : Part := { withPort { hunting .default none with openBlock := some 7, portUse := (n + 63) / 64, streamOffset := BitVec.ofNat 32 n } with
  freeList := [20, 21]
  blocks := [{ id := 7, kind := .output, port := 1, epoch := 0, start := 0, length := n, cells := List.range' 7 ((n + 63) / 64), marks := 0
               closeReason := none, sender := none, refCount := 1 }] }
def openBlockAt (n : Nat) : Block :=
  { id := 7, kind := .output, port := 1, epoch := 0, start := 0, length := n, cells := List.range' 7 ((n + 63) / 64), marks := 0
    closeReason := none, sender := none, refCount := 1 }
/-- No open block: at the last cell of the reserve, at the last of the share, and at the share limit. -/
def closedAt (use : Nat) : Part := { withPort { hunting .default none with portUse := use } with freeList := [20, 21] }
/-- The open block's only cell is full: the account in its reserve, or at its share limit. -/
def fullAt (use : Nat) : Part := { openAt 64 with ports := desk.ports.set 1 { (openAt 64).port 1 with portUse := use } }
def inUseOf (e : Part) : Nat := (e.ports.toList.map fun y => y.portUse - y.profile.reserve).sum
def reservesOf (e : Part) : Nat := (e.ports.toList.map fun y => y.profile.reserve).sum

theorem memory_empty (l) (u) (e : Part) (h : e.mem = []) : State.memoryCanonical ⟨l, u, e⟩ := by
  show Memory.wf e.mem
  rw [h]
  exact ⟨List.Pairwise.nil, by simp⟩

/-- An error kept under KEEP with the holding slot empty: with no open block, and into an open block's current cell. -/
theorem witness_ReceivedErrorsAreKept :
    (∀ e ∈ [closedAt 0, openAt 1], (e.port 1).portState ≠ .disabled ∧ (e.port 1).engine.receiver ≠ .waitMark ∧
      (e.port 1).profile.errorPolicy = .keep ∧ (e.port 1).engine.slot = none ∧ (⟨0x41, false, false, false⟩ : RxSample).stopMark = false) ∧
    (((openAt 1).port 1).openBlock = some 7 ∧ (openAt 1).block 7 = some (openBlockAt 1) ∧ ((openAt 1).port 1).profile.triggerSet = 0) ∧
    State.memoryCanonical { State.reset with part := openAt 1 } :=
  ⟨by decide +kernel, by decide +kernel, memory_empty _ _ _ rfl⟩

theorem witness_GoodBytesAreStoredOrWait :
    (((openAt 1).port 1).portState ≠ .disabled ∧ ((openAt 1).port 1).engine.receiver ≠ .waitMark ∧
      ((openAt 1).port 1).profile.parity = .noParity ∧ ((openAt 1).port 1).profile.flow = .noFlow ∧ ((openAt 1).port 1).engine.slot = none ∧
      ((openAt 1).port 1).profile.triggerSet = 0 ∧ (openAt 1).walkDue = false) ∧
    (evenDrop.parity = .even ∧ ((List.range 8).foldl (fun n j => n + ((1 : Byte).getLsbD j).toNat) 0 + true.toNat) % 2 = 0) ∧
    (∀ n ∈ [1, 63, 255, 511], ((openAt n).port 1).openBlock = some 7 ∧ (openAt n).block 7 = some (openBlockAt n) ∧ (openBlockAt n).length % 64 ≠ 0) ∧
    State.memoryCanonical { State.reset with part := openAt 511 } ∧
    (∀ use ∈ [0, 7, 8, 55, 63], ((closedAt use).port 1).openBlock = none ∧ (closedAt use).freeList = 20 :: [21] ∧
      ((closedAt use).port 1).profile.blockLimit ≠ 1 ∧ (∀ b ∈ (closedAt use).blocks, b.id ≠ 20) ∧
      (use < ((closedAt use).port 1).profile.reserve ∨ (use - 8 < ((closedAt use).port 1).profile.shareLimit ∧
        inUseOf (closedAt use) < 4032 - reservesOf (closedAt use)))) ∧
    State.memoryCanonical { State.reset with part := closedAt 0 } ∧
    (((fullAt 1).port 1).openBlock = some 7 ∧ (fullAt 1).block 7 = some (openBlockAt 64) ∧ (openBlockAt 64).length = 64 * (openBlockAt 64).cells.length ∧
      (fullAt 1).freeList = 20 :: [21] ∧ ((fullAt 1).port 1).portUse < ((fullAt 1).port 1).profile.reserve ∧
      ((fullAt 1).port 1).profile.blockLimit ≠ 65) ∧
    (∀ use ∈ [55, 56], ((paused { (closedAt use).port 1 with portUse := use }).engine.pause = .asserted ↔ use = 56)) ∧ State.memoryCanonical { State.reset with part := fullAt 1 } ∧
    (((fullAt 64).port 1).openBlock = some 7 ∧ (fullAt 64).block 7 = some (openBlockAt 64) ∧ ((fullAt 64).port 1).chain = [] ∧
      ¬(64 < ((fullAt 64).port 1).profile.reserve) ∧ ¬(64 - 8 < ((fullAt 64).port 1).profile.shareLimit) ∧ ((fullAt 64).port 1).portUse = 64) ∧
    (((closedAt 64).port 1).openBlock = none ∧ ¬(64 < ((closedAt 64).port 1).profile.reserve) ∧
      ¬(64 - 8 < ((closedAt 64).port 1).profile.shareLimit) ∧ ((closedAt 64).port 1).chain = [] ∧ ((closedAt 64).port 1).portUse = 64) := by
  refine ⟨?_, ?_, ?_, memory_empty _ _ _ rfl, ?_, memory_empty _ _ _ rfl, ?_, ?_, memory_empty _ _ _ rfl, ?_, ?_⟩
  all_goals and_intros <;> decide +kernel

/-- A block of port 1's history, with so many holds. -/
def oldBlock (id : Nat) (cells : List Nat) (holds : Nat) : Block :=
  { id, kind := .output, port := 1, epoch := 0, start := 0, length := 100, cells, marks := 0, closeReason := some .gap
    sender := none, refCount := holds }
/-- Port 1 stands at its share limit of 64 cells while three cells are free. Its history: a block that a queue holds too, one of
two cells that nothing else holds, and one more; or the first alone. -/
def shareSpent (blocks : List Block) : Part :=
  { withPort { hunting .default none with chain := blocks.map Block.id, portUse := 64, streamOffset := 100 } with
    freeList := [20, 21, 22], blocks := blocks }
def history : List Block := [oldBlock 7 [7, 8] 2, oldBlock 9 [9, 10] 1, oldBlock 11 [11] 1]
/-- No cell is free and the port's history holds its only two. -/
def lastCells : Part :=
  { withPort { hunting .default none with chain := [7], portUse := 2, streamOffset := 100 } with freeList := [], blocks := [oldBlock 7 [7, 8] 1] }

theorem cells_sound (e : Part) (h1 : e.cellsListed.Nodup) (h2 : ∀ c ∈ e.cellsListed, c < Config.cellCount)
    (h3 : ∀ b ∈ e.blocks, b.cells.head? = some b.id) (l) (u) : State.cellsOnce ⟨l, u, e⟩ := ⟨h1, h2, h3⟩

theorem witness_HistoryYieldsACellForTheByte :
    (∀ e ∈ [shareSpent history, shareSpent [oldBlock 7 [7, 8] 2], lastCells],
      (e.port 1).portState ≠ .disabled ∧ (e.port 1).engine.receiver ≠ .waitMark ∧ (e.port 1).profile.parity = .noParity ∧
      (e.port 1).profile.flow = .noFlow ∧ (e.port 1).engine.slot = none ∧ (e.port 1).profile.triggerSet = 0 ∧
      (e.port 1).profile.blockLimit ≠ 1 ∧ e.waitList = [] ∧ (e.port 1).openBlock = none ∧ (e.port 1).chain.Nodup ∧
      (∀ id ∈ (e.port 1).chain, (e.block id).map (fun b => (b.kind, b.port)) = some (.output, 1))) ∧
    (((shareSpent history).port 1).chain = [7] ++ 9 :: [11] ∧ ¬admitsAfter (shareSpent history) 1 [7] ∧
      admitsAfter (shareSpent history) 1 ([7] ++ [9]) ∧ (oldBlock 7 [7, 8] 2).refCount = 2 ∧
      (shareSpent history).freeList ++ (freedBy (shareSpent history) ([7] ++ [9])).flatMap Block.cells = 20 :: [21, 22, 9, 10]) ∧
    ¬admitsAfter (shareSpent [oldBlock 7 [7, 8] 2]) 1 ((shareSpent [oldBlock 7 [7, 8] 2]).port 1).chain ∧
    ((lastCells.port 1).chain = [] ++ 7 :: [] ∧ ¬admitsAfter lastCells 1 [] ∧ admitsAfter lastCells 1 ([] ++ [7])) ∧
    (∀ blocks, State.memoryCanonical { State.reset with part := shareSpent blocks }) ∧
    State.cellsOnce { State.reset with part := shareSpent history } ∧
    State.cellsOnce { State.reset with part := shareSpent [oldBlock 7 [7, 8] 2] } ∧
    State.cellsOnce { State.reset with part := lastCells } ∧ State.memoryCanonical { State.reset with part := lastCells } := by
  simp only [admitsAfter]
  refine ⟨?_, ?_, ?_, ?_, fun _ => memory_empty _ _ _ rfl, cells_sound _ ?_ ?_ ?_ _ _, cells_sound _ ?_ ?_ ?_ _ _,
    cells_sound _ ?_ ?_ ?_ _ _, memory_empty _ _ _ rfl⟩
  all_goals and_intros <;> decide +kernel

/-- Trigger 15 waits for LF, CR, LF with every action; port 1 selects it alone, and the first two bytes have matched. -/
def prompt : Trigger := { valid := true, length := 3, pattern := (Vector.replicate 12 0).set 0 0x0A |>.set 1 0x0D |>.set 2 0x0A, actions := 7, markGroup := 7 }
def matching (at_ : Nat) (actions : BitVec 8) : Part := { openAt 2 with
  triggers := (Vector.replicate 16 Trigger.empty).set 15 { prompt with actions }
  ports := desk.ports.set 1 { hunting { Profile.default with triggerSet := 0x8000 } none with
    openBlock := some 7, portUse := 1, streamOffset := 2, matchPos := (Vector.replicate 16 0).set 15 at_ } }

theorem witness_TriggersActOnTheirMatch :
    ∀ at_ ∈ [0, 2], ∀ actions ∈ [(0 : BitVec 8), 7], ∀ byte ∈ [(0x0A : Byte), 0x41],
      let e := matching at_ actions
      ((e.port 1).portState ≠ .disabled ∧ (e.port 1).engine.receiver ≠ .waitMark ∧ (e.port 1).profile.parity = .noParity ∧
        (e.port 1).profile.flow = .noFlow ∧ (e.port 1).engine.slot = none ∧ (e.port 1).openBlock = some 7 ∧
        (e.block 7).map Block.length = some 2) ∧
      ((e.trigger 15).valid = true ∧
        (∀ t' : TriggerNo, (e.trigger t').valid = true → ((e.port 1).profile.triggerSet.getLsbD t'.val = true ↔ t' = 15)) ∧
        (nextPosition (e.trigger 15) ((e.port 1).matchPos[(15 : TriggerNo)]) byte = (e.trigger 15).length ↔ at_ = 2 ∧ byte = 0x0A)) := by
  decide +kernel

theorem witness_PinsTokensAndLinkAreFollowed :
    ((desk.port 1).portState ≠ .disabled ∧ (desk.port 1).pins.rxd = true) ∧ (bench.port 1).portState = .disabled ∧
    ((withPort { live with pins := ⟨false, false, false⟩ }).port 1).pins.rxd = false ∧
    (({ desk with transmission := some onWire } : Part).transmission = some ⟨.notice anyNotice true, [0], false⟩ ∧
      ∀ what frame, ({ desk with transmission := some cutFrame } : Part).transmission ≠ some ⟨what, frame, false⟩) ∧
    ({ desk with transmission := some cutFrame } : Part).transmission = some ⟨.notice anyNotice true, [0], true⟩ ∧ desk.transmission = none := by
  refine ⟨?_, ?_, ?_, ⟨rfl, fun what frame => by simp [cutFrame]⟩, rfl, rfl⟩
  all_goals decide +kernel

/-- Raw DSR of port 1 is asserted and the debounce runs. -/
def arriving (state : PortState) (shift : ShiftReg) : Part :=
  withPort { live with
    portState := state, debounceTimer := some 0, pins := ⟨true, false, true⟩, profile := { Profile.default with presenceSource := .dsr }
    engine := { live.engine with shift := shift } }

/-- The same on an ACTIVE port with a HELD head and an AUX pulse, its reply in slot 3, whose AUX an apply has moved to MANUAL. -/
def arrivingOnPulse : Part :=
  ((arriving .active .empty).modPort 1 fun x => { x with
    profile := { x.profile with auxControl := .manual }, headHold := .held, holdTimer := some 2
    signal := some { pulse with kind := .auxPulse }, lines := { x.lines with aux := .assert } }).setSlot 3 (.reserved heldHeader)

/-- R57, R169, R174: presence ends the pulse with AUX at DEASSERT, under MANUAL too (log 36), turns the HELD head to RETRY, demotes the
owner; a DTR moved to MANUAL during its pulse keeps DEASSERT (log 55), one under AUTO takes ASSERT. -/
theorem test_presence_ends_a_pulse :
    let t := (after (.dsrDebounceExpiry 1) { State.reset with part := arrivingOnPulse }).part
    ((t.port 1).portState = .localHold ∧ (t.port 1).lines.aux = .deassert ∧ (t.port 1).headHold = .retry ∧ (t.port 1).signal = none ∧
      t.slot 3 = .formed heldHeader .aborted [1, 0, 200, 0, 7] ∧ t.ownerOf 1 = none) ∧
    ([LineControl.manual, .auto].map fun c => ((({ live with
      profile := { Profile.default with dtrControl := c }, lines := { live.lines with dtr := .deassert }, signal := some pulse } : Port).dropSignal
        true).lines.dtr)) = [.deassert, .assert] := by decide +kernel

/-- The same on a port in RECONFIG with a load that waits and an empty register. -/
def arrivingLoad : Part := (arriving .reconfig .empty).modPort 1 fun x => { x with pendingLoad := some idleLoad }

theorem witness_PresenceTakesThePort :
    ((desk.port 1).debounceTimer = none ∧ ((withPort { live with debounceTimer := some 0 }).port 1).debounceTimer ≠ none ∧
      ((withPort { live with debounceTimer := some 0 }).port 1).profile.presenceSource ≠ .dsr) ∧
    (∀ e ∈ [(PortState.disabled, ShiftReg.empty), (.localHold, .empty), (.active, .empty), (.active, .flow .xon), (.reconfig, .flow .xon)],
      ((arriving e.1 e.2).port 1).debounceTimer ≠ none ∧ ((arriving e.1 e.2).port 1).profile.presenceSource = .dsr ∧
      ((arriving e.1 e.2).port 1).dsrDebounced = false ∧ ((arriving e.1 e.2).port 1).pins.dsr = true ∧
      ((arriving e.1 e.2).port 1).portState = e.1 ∧ ((arriving e.1 e.2).port 1).engine.shift = e.2) ∧
    ((arrivingLoad.port 1).portState = .reconfig ∧ (arrivingLoad.port 1).engine.shift = .empty ∧ (arrivingLoad.port 1).debounceTimer ≠ none ∧
      (arrivingLoad.port 1).profile.presenceSource = .dsr ∧ (arrivingLoad.port 1).dsrDebounced = false ∧
      (arrivingLoad.port 1).pins.dsr = true ∧ (arrivingLoad.port 1).pendingLoad = some idleLoad ∧ arrivingLoad.waitList = []) ∧
    ((arrivingOnPulse.port 1).signal = some { pulse with kind := .auxPulse } ∧ arrivingOnPulse.slot 3 = .reserved heldHeader ∧
      (arrivingOnPulse.port 1).headHold = .held ∧ arrivingOnPulse.owns 0 1 = true ∧ arrivingOnPulse.notices.length < 32 ∧
      (arrivingOnPulse.port 1).portState = .active ∧ (arrivingOnPulse.port 1).debounceTimer ≠ none) ∧
    State.portsOwned { State.reset with part := arrivingOnPulse } ∧
    (∀ state ∈ [PortState.active, .reconfig], State.portsOwned { State.reset with part := arriving state .empty }) ∧
    State.portsOwned { State.reset with part := arriving .reconfig (.flow .xon) } ∧
    State.portsOwned { State.reset with part := arrivingLoad } := by
  refine ⟨?_, by decide +kernel, by decide +kernel, by decide +kernel,
    desk_portsOwned arrivingOnPulse rfl (by decide +kernel) (by decide +kernel) _ _, fun state h => ?_,
    desk_portsOwned (arriving .reconfig (.flow .xon)) rfl (by decide +kernel) (by decide +kernel) _ _,
    desk_portsOwned arrivingLoad rfl (by decide +kernel) (by decide +kernel) _ _⟩
  · and_intros <;> decide +kernel
  · obtain rfl | rfl : state = .active ∨ state = .reconfig := by simpa using h
    all_goals exact desk_portsOwned (arriving _ .empty) rfl (by decide +kernel) (by decide +kernel) _ _

/-- The limit expires on a port whose pulse runs on, where the new entry finds presence asserted. -/
theorem witness_LimitExpiresUnderASignal :
    ((met .empty).port 1).reconfigTimer ≠ none ∧ ((met .empty).port 1).pendingLoad = some presenceLoad ∧
    ((met .empty).port 1).engine.shift = .empty ∧ (met .empty).waitList = [] ∧ (met .empty).system.supervisor ≠ none ∧
    State.slotsHeld { State.reset with part := met .empty } := by
  refine ⟨?_, ?_, ?_, ?_, ?_, met_slotsHeld _ (.inl rfl) _ _⟩ <;> decide +kernel

theorem witness_PortTimersExpire :
    ((desk.port 1).reconfigTimer = none ∧ (desk.port 1).gapTimer = none ∧ (desk.port 1).holdTimer = none) ∧
    (((withPort loading).port 1).reconfigTimer ≠ none ∧ ((withPort loading).port 1).pendingLoad = some idleLoad ∧
      ((withPort loading).port 1).engine.shift ≠ .empty) ∧
    (((withPort { loading with engine := .initial }).port 1).reconfigTimer ≠ none ∧
      ((withPort { loading with engine := .initial }).port 1).engine.shift = .empty ∧
      ((withPort { loading with engine := .initial }).port 1).signal = none ∧ (withPort { loading with engine := .initial }).waitList = []) ∧
    (((withPort { loading with engine := .initial, signal := some pulse }).port 1).reconfigTimer ≠ none ∧
      ((withPort { loading with engine := .initial, signal := some pulse }).port 1).engine.shift = .empty ∧
      idleLoad.entry.presenceSource ≠ .dsr) ∧
    (((withPort { live with gapTimer := some 0 }).port 1).gapTimer ≠ none ∧ ((withPort { live with gapTimer := some 0 }).port 1).openBlock = none) ∧
    (((withPort { live with gapTimer := some 0, openBlock := some 7 }).port 1).openBlock = some 7) ∧
    (∀ h ∈ [HeadHold.noHold, .forfeit, .held, .retry],
      ((withPort { live with holdTimer := some 0, headHold := h }).port 1).holdTimer ≠ none ∧
      ((withPort { live with holdTimer := some 0, headHold := h }).port 1).headHold = h) := by
  and_intros <;> decide +kernel

def phaseOf (kind : SignalKind) (phase : SignalPhase) : Part :=
  (withPort { live with signal := some { pulse with kind, phase } }).setSlot 3 (.reserved heldHeader)
/-- A port in RECONFIG whose load waits for the signal alone. -/
def lastSignal (kind : SignalKind) (phase : SignalPhase) : Part :=
  (phaseOf kind phase).modPort 1 fun x => { x with portState := .reconfig, pendingLoad := some { idleLoad with slot := 5 } }

theorem witness_SignalPhasesRunOut :
    (desk.port 1).signal = none ∧
    (∀ e ∈ [(SignalKind.breakSignal, SignalPhase.space), (.breakSignal, .mark 1), (.auxPulse, .on), (.dtrPulse, .on), (.breakSignal, .waiting)],
      ((phaseOf e.1 e.2).port 1).signal = some { pulse with kind := e.1, phase := e.2 } ∧ (phaseOf e.1 e.2).slot 3 = .reserved heldHeader ∧
      ((phaseOf e.1 e.2).port 1).portState ≠ .reconfig ∧ ((phaseOf e.1 e.2).port 1).portState ≠ .disabled ∧
      ((phaseOf e.1 e.2).port 1).profile.auxControl = .auto ∧ ((phaseOf e.1 e.2).port 1).profile.dtrControl = .auto) ∧
    (∀ e ∈ [(SignalKind.breakSignal, SignalPhase.mark 1), (.auxPulse, .on), (.dtrPulse, .on)],
      ((lastSignal e.1 e.2).port 1).signal = some { pulse with kind := e.1, phase := e.2 } ∧ (lastSignal e.1 e.2).slot 3 = .reserved heldHeader ∧
      ((lastSignal e.1 e.2).port 1).portState = .reconfig ∧ ((lastSignal e.1 e.2).port 1).pendingLoad = some { idleLoad with slot := 5 } ∧
      idleLoad.flushed = none ∧ ((lastSignal e.1 e.2).port 1).engine.fifo = [] ∧ ((lastSignal e.1 e.2).port 1).engine.shift = .empty ∧
      ((lastSignal e.1 e.2).port 1).engine.pendingFlow = none ∧ (lastSignal e.1 e.2).waitList = []) ∧
    ((bench.port 1).portState = .disabled ∧ (desk.port 1).portState ≠ .disabled) := by
  and_intros <;> decide +kernel

/-! ### Witnesses: fan-out and delivery -/

def offeredBlock : Block :=
  { id := 7, kind := .output, port := 1, epoch := 0, start := 0, length := 5, cells := [7], marks := 0, closeReason := some .gap
    sender := none, refCount := 1 }
/-- A closed block heads the Block Queue of port 1; its head state and profile as given; session 0 owns the port, session 1 observes. -/
def offered (profile : Profile) (head : HeadHold) : Part := { withPort { live with
    profile := profile, headHold := head, holdTimer := if head = .retry then some 3 else none, blockQueue := [7], portUse := 1, streamOffset := 5 } with
  blocks := [offeredBlock] }
def holdMode : Profile := { Profile.default with mode := .hold }
/-- The owner's queue stands at its limit of 4 with other blocks. -/
def choked (head : HeadHold) : Part :=
  { offered holdMode head with queues := desk.queues.set 0 ((List.range 4).map fun k => { block := 30 + k, history := false }) }
/-- Two blocks wait behind a pressure threshold of 1. -/
def pressedPort : Part := { offered { Profile.default with pressureThreshold := 1, pressureCopies := 0 } .noHold with
  ports := desk.ports.set 1 { live with
    profile := { Profile.default with pressureThreshold := 1, pressureCopies := 0 }, blockQueue := [7, 8], portUse := 2 } }

/-- Tap 3 watches port 1's output as well; and a history limit of 2 cells over two blocks of history, of 2 cells and of 1. -/
def offeredToTap : Part := (offered .default .noHold).setTap 3 { entry := plainTap, counters := .zero }
def offeredOverHistory : Part := { offered { Profile.default with historyLimit := 2 } .noHold with
  ports := desk.ports.set 1 { live with
    profile := { Profile.default with historyLimit := 2 }, blockQueue := [7], chain := [30, 9], portUse := 4, streamOffset := 5 }
  blocks := [offeredBlock, oldBlock 30 [30, 31] 1, oldBlock 9 [9] 1] }

/-- The copy list of the offered block: the owner's queue, tap 3's where it watches, the observer's. -/
theorem offered_copyList :
    CopyList (offered .default .noHold) offeredBlock [sessionQueue 0] [] [sessionQueue 1] ∧
    CopyList offeredToTap offeredBlock [sessionQueue 0] [tapQueue 3] [sessionQueue 1] := by
  refine ⟨⟨?_, ?_, ?_, ?_, [1], rfl, List.pairwise_singleton _ _, ?_⟩, ⟨?_, ?_, ?_, ?_, [1], rfl, List.pairwise_singleton _ _, ?_⟩⟩ <;>
    (try simp only [isOwner, takesOutput, ← Option.mem_def]) <;> decide +kernel

theorem witness_FanoutHandsOverTheHead :
    (∀ p, (desk.port p).blockQueue = [] ∨ (desk.port p).headHold = .held) ∧
    (∀ e ∈ [choked .noHold, choked .retry, choked .forfeit, offered holdMode .noHold, offered .default .noHold],
      ((e.port 1).blockQueue = 7 :: [] ∧ (e.port 1).headHold ≠ .held ∧ (e.block 7).map Block.id = some 7 ∧
        (e.block 7).map Block.port = some 1) ∧
      (∀ q : PortNo, (q.val + 48 - (e.lastServed.val + 1)) % 48 < ((1 : PortNo).val + 48 - (e.lastServed.val + 1)) % 48 →
        (e.port q).blockQueue = [] ∨ (e.port q).headHold = .held) ∧ e.waitList = []) ∧
    (∀ h ∈ [HeadHold.noHold, .retry, .forfeit], ((choked h).port 1).profile.mode = .hold ∧ ((choked h).port 1).headHold = h ∧
      isOwner (choked h) 1 0 ∧ admittedTo (choked h) 7 752 [sessionQueue 0] = []) ∧
    (admittedTo (offered holdMode .noHold) 7 0 [sessionQueue 0] = [sessionQueue 0] ∧ ((offered .default .noHold).port 1).profile.mode ≠ .hold) ∧
    admittedTo offeredToTap 7 0 ([sessionQueue 0] ++ [tapQueue 3] ++ [sessionQueue 1]) = [sessionQueue 0, tapQueue 3, sessionQueue 1] ∧
    ((offeredOverHistory.port 1).blockQueue = 7 :: [] ∧ ((offeredOverHistory.port 1).chain ++ [7]).Nodup ∧ offeredOverHistory.waitList = [] ∧
      let t := (after .fanoutServe { State.reset with part := offeredOverHistory }).part
      (t.port 1).chain = [9, 7] ∧ t.block 30 = none) ∧
    ((pressedPort.port 1).profile.pressureThreshold ≠ 0 ∧
      (pressedPort.port 1).profile.pressureThreshold < (pressedPort.port 1).blockQueue.length ∧ (pressedPort.port 1).blockQueue = 7 :: [8] ∧
      (pressedPort.block 7).map Block.id = some 7) := by
  simp only [isOwner]
  and_intros <;> decide +kernel

theorem witness_SessionTimersEndSessions :
    ((desk.session 0).state = .active ∧ (desk.session 0).idleTimer = none) ∧
    (((withSession { onPort1 0 .owner with idleTimer := some 0 }).session 0).state = .active ∧
      ((withSession { onPort1 0 .owner with idleTimer := some 0 }).session 0).idleTimer = some 0) ∧
    ((withSession { onPort1 0 .owner with idleTimer := some 3 }).session 0).idleTimer = some 3 ∧
    ((draining.session 0).state = .draining ∧ (draining.session 0).drainTimer ≠ none) := by decide +kernel

/-- Queue 0, or tap 3's queue, is the current queue with one frame left; the session's block, and the tap's, wait. -/
def ready (q : QueueNo) (length : Nat) (level : Int) : State :=
  { State.reset with
    uplink := { State.reset.uplink with level := level }
    part := { (tapOn.setQueue q [{ block := 7, history := true }]) with
      curQueue := q, framesLeft := 1
      blocks := [{ id := 7, kind := .output, port := 1, epoch := 0, start := 0, length := length, cells := List.range' 7 8, marks := 0
                   closeReason := some .full, sender := none, refCount := 3 }] } }

/-- Queue `cur` was visited last and no frames are left to it; queue `q` alone has an entry. -/
def turning (cur q : QueueNo) : State := { State.reset with part := { desk.setQueue q [{ block := 7, history := false }] with curQueue := cur } }

theorem witness_DataFramesBegin :
    (¬((settle State.reset).part.framesLeft ≠ 0) ∧ ∀ q, State.reset.part.queue q = []) ∧
    (after .linkDown State.reset).uplink.link ≠ .up ∧
    (∀ e ∈ [((67 : QueueNo), sessionQueue 0), (0, sessionQueue 0), (0, sessionQueue 63), (3, tapQueue 3), (67, tapQueue 3)],
      let s := turning e.1 e.2
      (s.uplink.link = .up ∧ s.part.transmission = none ∧ s.part.formed = [] ∧ s.part.notices = [] ∧ s.part.framesLeft = 0) ∧
      s.part.queue e.2 ≠ [] ∧
      ∀ q', (q'.val + 68 - (e.1.val + 1)) % 68 < (e.2.val + 68 - (e.1.val + 1)) % 68 → s.part.queue q' = []) ∧
    (∀ q ∈ [sessionQueue 0, tapQueue 3], ∀ e ∈ [(512, (552 : Int)), (512, 551), (24, 64), (24, 63)],
      let s := ready q e.1 e.2
      let r := (settle s).part
      (s.uplink.link = .up ∧ s.part.transmission = none ∧ s.part.formed = [] ∧ s.part.notices = []) ∧
      (r.framesLeft ≠ 0 ∧ r.curQueue = q ∧ r.queue r.curQueue = { block := 7, history := true } :: [] ∧
        (r.block 7).map Block.length = some e.1 ∧ e.1 ≤ 512) ∧
      (((max 64 (e.1 + 40) : Nat) : Int) ≤ s.uplink.level ↔ e.2 = 552 ∨ e.2 = 64)) := by
  refine ⟨by and_intros <;> decide +kernel, by decide +kernel, fun e he => ?_, by decide +kernel⟩
  simp only [List.mem_cons, List.not_mem_nil, or_false] at he
  rcases he with rfl | rfl | rfl | rfl | rfl <;> decide +kernel

/-- An OUTPUT or a TAPCOPY frame of block 7 on the wire, with `holds` holds on the block. -/
def sendingData (what : TxKind) (holds : Nat) (state : SessionState) : Part :=
  { withSession { onPort1 0 .observer with state } with
    transmission := some ⟨what, [0], false⟩
    blocks := [{ offeredBlock with refCount := holds }] }

/-- Block 7 of port 1 is the last cell of a full shared pool, which port 4 fills. Ports 2 and 3 have spent their reserves, and each holds
a byte that begins a block; so does port 1 where the list names it. One cell is free. -/
def poolFull (what : TxKind) (waits : List PortNo) : Part :=
  { sendingData what 1 .active with
    ports := (((desk.ports.set 1 { live with portUse := 9, engine := { live.engine with slot := some 0x31 } }).set 2
      { live with portUse := 8, engine := { live.engine with slot := some 0x32 } }).set 3
      { live with portUse := 8, engine := { live.engine with slot := some 0x33 } }).set 4 { live with portUse := 3655 }
    waitList := waits, freeList := [20] }

theorem poolFull_cellsOnce (what : TxKind) (waits : List PortNo) (l) (u) : State.cellsOnce ⟨l, u, poolFull what waits⟩ := by
  have h : (poolFull what waits).cellsListed = [20, 7] := rfl
  have hb : (poolFull what waits).blocks = [{ offeredBlock with refCount := 1 }] := rfl
  refine ⟨by show (poolFull what waits).cellsListed.Nodup; rw [h]; decide, fun c hc => ?_, fun b hb' => ?_⟩
  · rw [show (poolFull what waits).cellsListed = _ from h] at hc
    revert c; decide
  · rw [show (poolFull what waits).blocks = _ from hb] at hb'
    revert b; decide

/-- A freed block whose origin waits, the newest on the list, and ones whose origin does not. -/
theorem witness_WaitingPortsAreRetried :
    (∀ e ∈ [(TxKind.tapcopy 7 67, [(3 : PortNo), 2, 1]), (.output 7 0 none, [3, 2]), (.output 7 0 (some 0), [2, 3])],
      (poolFull e.1 e.2).transmission = some ⟨e.1, [0], false⟩ ∧ ((poolFull e.1 e.2).block 7).map Block.refCount = some 1 ∧
      BeginnersWait (poolFull e.1 e.2) ∧ State.cellsOnce { State.reset with part := poolFull e.1 e.2 }) := by
  have h : ∀ e ∈ [(TxKind.tapcopy 7 67, [(3 : PortNo), 2, 1]), (.output 7 0 none, [3, 2]), (.output 7 0 (some 0), [2, 3])],
      (poolFull e.1 e.2).transmission = some ⟨e.1, [0], false⟩ ∧ ((poolFull e.1 e.2).block 7).map Block.refCount = some 1 ∧
      BeginnersWait (poolFull e.1 e.2) := by
    unfold BeginnersWait
    decide +kernel
  exact fun e he => ⟨(h e he).1, (h e he).2.1, (h e he).2.2, poolFull_cellsOnce _ _ _ _⟩

/-- R71: the freed block's origin is retried first although it waits last; where it does not wait, the oldest entry takes the one share,
and the cell at the head of the free list. -/
theorem test_freed_cell_goes_to_the_origin_then_the_oldest :
    let t := (after .dataFrameComplete { State.reset with part := poolFull (.tapcopy 7 67) [3, 2, 1] }).part
    let u := (after .dataFrameComplete { State.reset with part := poolFull (.tapcopy 7 67) [3, 2] }).part
    (t.waitList = [3, 2] ∧ (t.block 20).map Block.port = some 1 ∧ t.freeList = [7]) ∧
    (u.waitList = [2] ∧ (u.block 20).map Block.port = some 3 ∧ u.freeList = [7] ∧ (u.port 2).engine.slot = some 0x32) := by
  decide +kernel

theorem witness_DataFramesComplete :
    (∀ b q n frame, desk.transmission ≠ some ⟨.output b q n, frame, false⟩) ∧ (∀ b q frame, desk.transmission ≠ some ⟨.tapcopy b q, frame, false⟩) ∧
    (∀ e ∈ [(TxKind.tapcopy 7 67, 2), (.output 7 0 none, 2), (.output 7 0 (some 0), 2), (.tapcopy 7 67, 1), (.output 7 0 none, 1),
        (.output 7 0 (some 0), 1)],
      (sendingData e.1 e.2 .active).transmission = some ⟨e.1, [0], false⟩ ∧
      ((sendingData e.1 e.2 .active).block 7).map Block.refCount = some e.2 ∧ (sendingData e.1 e.2 .active).waitList = []) ∧
    ((∀ holds ∈ [1, 2], ((sendingData (.output 7 0 (some 0)) holds .draining).session 0).state = .draining ∧
        (sendingData (.output 7 0 (some 0)) holds .draining).queue (sessionQueue 0) = []) ∧
      ((sendingData (.output 7 0 (some 0)) 2 .active).session 0).state ≠ .draining) := by
  have h : desk.transmission = none := rfl
  refine ⟨fun b q n frame => by simp [h], fun b q frame => by simp [h], ?_⟩
  and_intros <;> decide +kernel

/-- A reply formed in slot 4 and a notice wait on a free uplink; or one of them is in transmission. -/
def waitingControl (last : ControlKind) : Part := { pulsing with notices := [anyNotice], lastControl := last }

theorem witness_ControlFramesAlternate :
    (∀ e ∈ [(ControlKind.notice, ControlKind.reply), (.reply, .notice)], (waitingControl e.1).transmission = none ∧
      (waitingControl e.1).chosen = none ∧ (settle { State.reset with part := waitingControl e.1 }).part.chosen = some e.2) ∧
    ((waitingControl .notice).formed = 4 :: [] ∧ (waitingControl .notice).slot 4 = .formed heldHeader .ok [] ∧
      (waitingControl .reply).notices = anyNotice :: []) ∧
    (-(15180 : Int) ≤ State.reset.uplink.level - 64 ∧ State.reset.part.system.burst = 15180 ∧ (-15117 : Int) - 64 < -15180) ∧
    (State.reset.uplink.link = .up ∧ (settle State.reset).part.chosen = none ∧ (after .linkDown State.reset).uplink.link = .down) ∧
    (({ pulsing with transmission := some ⟨.reply 4, [0], false⟩ } : Part).transmission = some ⟨.reply 4, [0], false⟩ ∧
      (∀ k frame, desk.transmission ≠ some ⟨.reply k, frame, false⟩)) ∧
    (({ desk with transmission := some onWire } : Part).transmission = some ⟨.notice anyNotice true, [0], false⟩ ∧
      (∀ m queued frame, desk.transmission ≠ some ⟨.notice m queued, frame, false⟩)) := by
  have h : desk.transmission = none := rfl
  refine ⟨?_, ?_, ?_, ?_, ⟨rfl, fun k frame => by simp [h]⟩, ⟨rfl, fun m queued frame => by simp [h]⟩⟩
  all_goals and_intros <;> decide +kernel

/-- The shaper's two sides of a control frame of 64 bytes: at −burst + 64 it may begin, one below it may not (R163). -/
theorem test_control_frame_floor :
    (after .controlFrameBegin { State.reset with part := waitingControl .notice, uplink := { State.reset.uplink with level := -15116 } }).uplink.level =
      -15180 ∧
    (after .controlFrameBegin { State.reset with part := waitingControl .notice, uplink := { State.reset.uplink with level := -15117 } }).uplink.level =
      -15117 := by
  and_intros <;> decide +kernel

/-! ### Corners of the cascades -/

/-- R38: SOFT to SOFT with XOFF sent last and the pause RELEASED: the XON is owed, and sent. -/
theorem test_soft_to_soft_sends_the_owed_xon :
    ((after .loadProfile (ask (withPort { soft with engine := { live.engine with lastFlow := .xoff } }) 0 0x11 255
      ([1, 1] ++ soft.profile.bytes))).part.port 1).engine.shift = .flow .xon := by decide +kernel
/-- R54, R72, R80: the stopping port's own waiting byte takes no offset, and it leaves the wait list. -/
theorem test_disable_discards_the_waiting_byte :
    let t := after .portControlDisable (ask { parting with waitList := [1] } 0 0x0E 255 [1, 1])
    (t.part.port 1).streamOffset = 9 ∧ (t.part.port 1).engine.slot = none ∧ t.part.waitList = [] ∧ t.part.block 7 = none ∧
    (t.part.block 8).map Block.refCount = some 1 := by decide +kernel
/-- R62, R71, R161: a KEYS block has an origin port; when it is freed its port's waiting byte is retried, and here the pool now admits. -/
theorem test_freed_keys_block_retries_its_port :
    let t := after .dataFrameComplete { State.reset with part := { withPort { hunting .default (some 0x41) with portUse := 3 } with
      waitList := [1], transmission := some ⟨.tapcopy 7 67, [0], false⟩, tapUse := 1
      freeList := [20], blocks := [{ offeredBlock with kind := .keys, closeReason := none, sender := some 0 }] } }
    (t.part.port 1).engine.slot = none ∧ t.part.waitList = [] ∧ t.part.tapUse = 0 ∧ (t.part.port 1).portUse = 4 := by decide +kernel
/-- R179: the apply of one load sets PAUSE (8) and LOCAL (5) after the limit set RECONFIG_FLUSH (9); the notices stand in the table's order. -/
theorem test_notices_of_one_event_stand_in_table_order :
    let entry := { Profile.default with noticeMask := 0x3FF, presenceSource := .dsr, pauseOn := 1, pauseOff := 0 }
    let t := after (.reconfigTimerExpiry 1) { State.reset with part := { withPort { live with
      profile := { Profile.default with noticeMask := 0x3FF }, portState := .reconfig, reconfigTimer := some 0, dsrDebounced := true, portUse := 1
      pendingLoad := some { idleLoad with entry } } with
      system := { State.reset.part.system with supervisor := some 0 } } }
    (t.part.notices.filterMap fun m => (m.conditionOf 1).map Condition.code) =
      [5, 8, 9] := by decide +kernel
/-- R179, R181: of an event with 34 notices, PAUSE (8) of port 1 first and its LOCAL (5) last, LOCAL takes port 1's one place. -/
theorem test_table_order_outlasts_a_full_queue :
    let s : Part := { bench with
      ports := Vector.replicate 48 { live with profile := { Profile.default with noticeMask := 0x3FF } }
      system := { State.reset.part.system with supervisor := some 0 } }
    let t := inTableOrder 1 (fun e => setCondition 1 .localPresence
      ((List.range 32).foldl (fun e k => setCondition (Fin.ofNat 48 (k + 2)) .rxBreak e) (setCondition 1 .pause e))) s
    (t.notices.filterMap fun m => (m.conditionOf 1).map Condition.code) = [5] ∧ t.notices.length = 32 ∧ t.noticesLost = true := by
  decide +kernel
/-- R168: AUX takes the entry's active level under ASSERT, the other under DEASSERT, and is not driven under RELEASE. -/
theorem test_aux_pin_follows_the_active_level :
    ([Drive.assert, .deassert, .release].map fun d => ({ live with lines := { live.lines with aux := d } } : Port).auxPin) =
      [some live.profile.auxLevel, some live.profile.auxLevel.other, none] := by decide +kernel
/-- R23, R30: 0xC1 as it is sent, a start bit at space, data bits least significant first, parity, stop bits at mark: in 8N1; in 7E1, where
the low seven bits have two ones; and in 8O2, where the eight have three. XOFF goes out as 0x13. -/
theorem test_characters_as_sent :
    characterSent Profile.default 0xC1 = [false, true, false, false, false, false, false, true, true, true] ∧
    characterSent { Profile.default with dataBits := 7, parity := .even } 0xC1 =
      [false, true, false, false, false, false, false, true, false, true] ∧
    characterSent { Profile.default with parity := .odd, stopBits := 2 } 0xC1 =
      [false, true, false, false, false, false, false, true, true, false, true, true] ∧
    ({ live with engine := { live.engine with shift := .flow .xoff } } : Port).txd =
      .character [false, true, true, false, false, true, false, false, false, true] := by decide +kernel

end Sys2Proof.Tests
end

section
namespace Sys2Proof.Machine
open Sys2Proof.Claims

/-! ### What the events on pins, tokens and link do -/

/-- The debounce timer by the level DSR takes (R56). -/
theorem Port.debounce_eq (x : Port) (level : Bool) :
    x.debounce level = if level = x.dsrDebounced then none else some (x.debounceTimer.getD 20) := by
  unfold Port.debounce
  cases x.debounceTimer <;> rfl

/-- Below +burst the level rises by one, and from there on it stands (R162). -/
theorem riseLevel_eq (burst : Nat) (level : Int) : riseLevel burst level = if level < burst then level + 1 else level := by
  unfold riseLevel
  split_ifs <;> omega

/-- The engine runs (R21). -/
theorem Port.running_iff (x : Port) : x.running = true ↔ x.portState ≠ .disabled := by simp [Port.running]

/-- A receiver takes a character when its engine runs and it does not wait at space (R21, R30). -/
theorem Port.canReceive_iff (x : Port) :
    x.canReceive = true ↔ x.portState ≠ .disabled ∧ (x.engine.receiver = .waitMark → x.pins.rxd = true) := by
  simp only [Port.canReceive, Bool.and_eq_true, Port.running_iff, Bool.or_eq_true, bne_iff_ne]
  tauto

/-- A start bit taken as noise: the receiver hunts if it could take a character, and else nothing happens (R30). -/
theorem startNoise_eq (p : PortNo) (s : Part) :
    startNoise p s = if (s.port p).canReceive then
      s.setPort p { s.port p with
        pins := { (s.port p).pins with rxd := true }, engine := { (s.port p).engine with receiver := .hunting } }
      else s := rfl

/-- The link goes down: a frame on the wire is cut off and counted, and nothing else changes (R165). -/
theorem loseLink_on_wire {s : State} {what : TxKind} {frame : List Byte} (h : s.part.transmission = some ⟨what, frame, false⟩) :
    loseLink s = { s with
      uplink := { s.uplink with link := .down, framesCut := s.uplink.framesCut + 1 }
      part := { s.part with transmission := some ⟨what, frame, true⟩ } } := by
  simp [loseLink, h]

theorem loseLink_no_wire {s : State} (h : ∀ what frame, s.part.transmission ≠ some ⟨what, frame, false⟩) :
    loseLink s = { s with uplink := { s.uplink with link := .down } } := by
  unfold loseLink
  cases ht : s.part.transmission with
  | none => rfl
  | some t =>
    obtain ⟨what, frame, cut⟩ := t
    cases cut with
    | false => exact absurd ht (h what frame)
    | true => rfl

/-- The link comes up: a frame in transmission is on the wire again, and nothing else changes (R165). -/
theorem regainLink_resends {s : State} {what : TxKind} {frame : List Byte} {cut : Bool}
    (h : s.part.transmission = some ⟨what, frame, cut⟩) :
    regainLink s = { s with
      uplink := { s.uplink with link := .up }, part := { s.part with transmission := some ⟨what, frame, false⟩ } } := by
  simp [regainLink, h]

theorem regainLink_idle {s : State} (h : s.part.transmission = none) :
    regainLink s = { s with uplink := { s.uplink with link := .up } } := by
  unfold regainLink
  rw [h, Option.map_none, ← h]

/-- Settles O52, each event by the equation of its operation. -/
theorem pinsTokensAndLinkAreFollowed : Obligations.PinsTokensAndLinkAreFollowed := by
  unfold Obligations.PinsTokensAndLinkAreFollowed
  refine ⟨fun s p level => ⟨?mark, fun hrun hmark => ?noise, fun hno => ?deaf, rfl, ?dsr⟩,
    fun s => ⟨?token, fun what frame ht => ?cut, fun hno => ?down, fun what frame cut ht => ?resent, fun ht => ?up⟩⟩
  case mark =>
    show donePart (rxdAtMark p) s = _
    simp only [donePart, done, rxdAtMark, Part.modPort, Port.running_iff]
  case noise =>
    show donePart (startNoise p) s = _
    rw [donePart, startNoise_eq, if_pos ((Port.canReceive_iff _).2 ⟨hrun, hmark⟩), done]
  case deaf =>
    show donePart (startNoise p) s = _
    rw [donePart, startNoise_eq, if_neg, done]
    rw [Port.canReceive_iff]
    rintro ⟨hrun, hmark⟩
    rcases hno with hstop | ⟨hwait, hspace⟩
    · exact hrun hstop
    · exact Bool.false_ne_true (hspace.symm.trans (hmark hwait))
  case dsr =>
    show donePart (changeDsr p level) s = _
    simp only [donePart, done, changeDsr, Part.modPort, Port.debounce_eq]
  case token =>
    show done _ = _
    rw [riseLevel_eq, done]
  case cut =>
    show done (loseLink s) = _
    rw [loseLink_on_wire ht, done]
  case down =>
    show done (loseLink s) = _
    rw [loseLink_no_wire hno, done]
  case resent =>
    show done (regainLink s) = _
    rw [regainLink_resends ht, done]
  case up =>
    show done (regainLink s) = _
    rw [regainLink_idle ht, done]

end Sys2Proof.Machine
end

section
namespace Sys2Proof.Machine
open Sys2Proof.Claims

/-! ### Parts that differ in the Notice Queue alone -/

/-- The two parts differ in the Notice Queue and its lost flag alone. -/
def SameButNotices (s t : Part) : Prop := ∃ m b, t = { s with notices := m, noticesLost := b }

namespace SameButNotices
variable {s t u : Part}

theorem refl (s : Part) : SameButNotices s s := ⟨s.notices, s.noticesLost, rfl⟩

theorem trans (a : SameButNotices s t) (b : SameButNotices t u) : SameButNotices s u := by
  obtain ⟨m, x, rfl⟩ := b
  obtain ⟨m', x', rfl⟩ := a
  exact ⟨m, x, rfl⟩

theorem symm (a : SameButNotices s t) : SameButNotices t s := by
  obtain ⟨m, x, rfl⟩ := a
  exact ⟨s.notices, s.noticesLost, rfl⟩

theorem eq (a : SameButNotices s t) : t = { s with notices := t.notices, noticesLost := t.noticesLost } := by
  obtain ⟨m, x, rfl⟩ := a
  rfl

theorem modPort (a : SameButNotices s t) (p : PortNo) (f : Port → Port) :
    SameButNotices (s.modPort p f) (t.modPort p f) := by
  obtain ⟨m, x, rfl⟩ := a
  exact ⟨m, x, rfl⟩

theorem port (a : SameButNotices s t) (p : PortNo) : t.port p = s.port p := by obtain ⟨m, x, rfl⟩ := a; rfl
theorem ports (a : SameButNotices s t) : t.ports = s.ports := by obtain ⟨m, x, rfl⟩ := a; rfl
theorem block (a : SameButNotices s t) (id : Nat) : t.block id = s.block id := by obtain ⟨m, x, rfl⟩ := a; rfl
theorem blocks (a : SameButNotices s t) : t.blocks = s.blocks := by obtain ⟨m, x, rfl⟩ := a; rfl
theorem mem (a : SameButNotices s t) : t.mem = s.mem := by obtain ⟨m, x, rfl⟩ := a; rfl
theorem freeList (a : SameButNotices s t) : t.freeList = s.freeList := by obtain ⟨m, x, rfl⟩ := a; rfl
theorem waitList (a : SameButNotices s t) : t.waitList = s.waitList := by obtain ⟨m, x, rfl⟩ := a; rfl
theorem walkDue (a : SameButNotices s t) : t.walkDue = s.walkDue := by obtain ⟨m, x, rfl⟩ := a; rfl
theorem sessions (a : SameButNotices s t) : t.sessions = s.sessions := by obtain ⟨m, x, rfl⟩ := a; rfl
theorem slots (a : SameButNotices s t) : t.slots = s.slots := by obtain ⟨m, x, rfl⟩ := a; rfl
theorem formed (a : SameButNotices s t) : t.formed = s.formed := by obtain ⟨m, x, rfl⟩ := a; rfl
theorem queues (a : SameButNotices s t) : t.queues = s.queues := by obtain ⟨m, x, rfl⟩ := a; rfl

end SameButNotices

theorem offerNotice_same (n : Notice) (s : Part) : SameButNotices s (offerNotice n s) := by
  rcases offerNotice_cases n s with ⟨_, e⟩ | ⟨_, e⟩ <;> rw [e]
  · exact ⟨_, _, rfl⟩
  · exact ⟨s.notices, true, rfl⟩

/-- As one event an operation does what it does on an empty Notice Queue, but for that queue (R179). -/
theorem inTableOrder_same (p : PortNo) (f : Part → Part) (s : Part) :
    SameButNotices (f { s with notices := [], noticesLost := false }) (inTableOrder p f s) := by
  obtain ⟨m, b, e, _⟩ := inTableOrder_eq p f s
  exact ⟨m, b, e⟩

/-! ### Updates of one port -/

@[simp] theorem Part.setPort_port_self (s : Part) (p : PortNo) : s.setPort p (s.port p) = s := by
  simp [Part.setPort, Part.port]

@[simp] theorem Part.setPort_setPort (s : Part) (p : PortNo) (x y : Port) : (s.setPort p x).setPort p y = s.setPort p y := by
  simp [Part.setPort, Vector.set_set]

theorem Part.modPort_eq (s : Part) (p : PortNo) (f : Port → Port) : s.modPort p f = s.setPort p (f (s.port p)) := rfl

@[simp] theorem Part.modPort_modPort (s : Part) (p : PortNo) (f g : Port → Port) :
    (s.modPort p f).modPort p g = s.modPort p fun x => g (f x) := by
  simp [Part.modPort]

/-- What is read of every port stands when one port changes nothing of it. -/
theorem Part.map_setPort {α : Type} (s : Part) (p : PortNo) (x : Port) (g : Port → α) (h : g x = g (s.port p)) :
    (s.setPort p x).ports.toList.map g = s.ports.toList.map g := by
  have hg : g x = (s.ports.toList.map g)[p.val]'(by simp) := by simpa [Part.port] using h
  simp only [Part.setPort, Vector.toList_set, List.map_set, hg, List.set_getElem_self]

/-! ### Conditions -/

/-- The port with a condition set (R178). -/
def Port.withCondition (x : Port) (c : Condition) : Port := { x with conditions := x.conditions ||| c.bit }

/-- A set that names a condition is not changed by setting it. -/
theorem or_bit_of_has {set : BitVec 10} {c : Condition} (h : hasCondition set c = true) : set ||| c.bit = set := by
  refine BitVec.eq_of_getLsbD_eq fun i _ => ?_
  rw [BitVec.getLsbD_or, Condition.bit, BitVec.getLsbD_twoPow]
  by_cases hi : c.code = i
  · subst hi
    rw [show set.getLsbD c.code = true from h, Bool.true_or]
  · simp [hi]

theorem hasCondition_or (a b : BitVec 10) (c : Condition) :
    hasCondition (a ||| b) c = (hasCondition a c || hasCondition b c) := by simp [hasCondition]

theorem hasCondition_bit (c : Condition) : hasCondition c.bit c = true := by cases c <;> decide

/-- Setting a condition sets it on the port, and may offer a notice (R178, R179). -/
theorem setCondition_same (p : PortNo) (c : Condition) (s : Part) :
    SameButNotices (s.modPort p (·.withCondition c)) (setCondition p c s) := by
  unfold setCondition
  split
  · next h =>
    have : (s.port p).withCondition c = s.port p := by rw [Port.withCondition, or_bit_of_has h]
    rw [Part.modPort_eq, this, Part.setPort_port_self]
    exact .refl s
  · dsimp only
    split
    · split
      · exact offerNotice_same _ _
      · exact .refl _
    · exact .refl _

end Sys2Proof.Machine
end

section
namespace Sys2Proof.Machine
open Sys2Proof.Claims

/-! ### What the transmitter loads (R23 to R25) -/

/-- The shift register may be loaded: the engine runs, the register is empty and no BREAK is in progress (R21, R23). -/
def Port.mayLoad (x : Port) : Prop :=
  x.portState ≠ .disabled ∧ x.engine.shift = .empty ∧ x.signalIs .breakSignal = false

/-- A pending flow character that may be sent now (R23). -/
def Port.owesFlow (x : Port) (ch : FlowChar) : Prop :=
  x.engine.pendingFlow = some ch ∧ (x.profile.flow = .soft ∨ ch = .xon)

theorem Port.flowToSend_iff (x : Port) (ch : FlowChar) : x.flowToSend = some ch ↔ x.owesFlow ch := by
  unfold Port.flowToSend Port.owesFlow
  cases h : x.engine.pendingFlow with
  | none => simp
  | some c =>
    dsimp only
    split_ifs with hc
    · simp only [Option.some.injEq]
      exact ⟨fun e => ⟨e, e ▸ hc⟩, And.left⟩
    · simp only [Option.some.injEq, false_iff]
      rintro ⟨rfl, h'⟩
      exact hc h'

theorem Port.flowToSend_none {x : Port} (h : ¬∃ ch, x.owesFlow ch) : x.flowToSend = none :=
  Option.eq_none_iff_forall_ne_some.2 fun ch e => h ⟨ch, (x.flowToSend_iff ch).1 e⟩

theorem Port.fifoStopped_iff (x : Port) : x.fifoStopped = true ↔
    (x.profile.flow = .soft ∧ x.engine.consoleStopped = true) ∨ (x.profile.flow = .hard ∧ x.pins.cts = false) := by
  simp [Port.fifoStopped]

theorem Port.load_guard (x : Port) :
    (x.running && x.engine.shift == .empty && !x.signalIs .breakSignal) = true ↔ x.mayLoad := by
  simp [Port.mayLoad, Port.running_iff, and_assoc]

theorem Port.load_of_not {x : Port} (h : ¬x.mayLoad) : x.load = x := by
  rw [Port.load, if_neg (mt x.load_guard.1 h)]

theorem Port.load_flow {x : Port} {ch : FlowChar} (h : x.mayLoad) (hf : x.owesFlow ch) :
    x.load = { x with engine := { x.engine with shift := .flow ch, pendingFlow := none, lastFlow := ch } } := by
  rw [Port.load, if_pos (x.load_guard.2 h), (x.flowToSend_iff ch).2 hf]

theorem Port.load_empty {x : Port} (hf : ¬∃ ch, x.owesFlow ch) (hq : x.engine.fifo = []) : x.load = x := by
  rw [Port.load, Port.flowToSend_none hf, hq]
  exact ite_self _

theorem Port.load_stopped {x : Port} (hf : ¬∃ ch, x.owesFlow ch) (hs : x.fifoStopped = true) : x.load = x := by
  rw [Port.load, Port.flowToSend_none hf, hs]
  split
  · cases x.engine.fifo <;> rfl
  · rfl

theorem Port.load_key {x : Port} {v : Byte} {tag : Option SessionNo} {rest : List (Byte × Option SessionNo)} (h : x.mayLoad)
    (hf : ¬∃ ch, x.owesFlow ch) (hs : x.fifoStopped = false) (hq : x.engine.fifo = (v, tag) :: rest) :
    x.load = { x with engine := { x.engine with shift := .key v tag, fifo := rest } } := by
  rw [Port.load, if_pos (x.load_guard.2 h), Port.flowToSend_none hf, hq, hs]
  rfl

/-- A load takes a flow character or a byte of the FIFO into the shift register, or leaves the port as it is. -/
theorem Port.load_cases (x : Port) : x.load = x ∨
    (∃ ch, x.load = { x with engine := { x.engine with shift := .flow ch, pendingFlow := none, lastFlow := ch } }) ∨
    (∃ v tag rest, x.load = { x with engine := { x.engine with shift := .key v tag, fifo := rest } }) := by
  by_cases h : x.mayLoad
  · by_cases hf : ∃ ch, x.owesFlow ch
    · obtain ⟨ch, hf⟩ := hf
      exact .inr (.inl ⟨ch, Port.load_flow h hf⟩)
    · match hq : x.engine.fifo, hs : x.fifoStopped with
      | [], _ => exact .inl (Port.load_empty hf hq)
      | _, true => exact .inl (Port.load_stopped hf hs)
      | (v, tag) :: rest, false => exact .inr (.inr ⟨v, tag, rest, Port.load_key h hf hs hq⟩)
  · exact .inl (Port.load_of_not h)

/-- A load changes the transmit half of the engine alone. -/
theorem Port.load_eq (x : Port) : x.load = { x with engine := { x.engine with
    fifo := x.load.engine.fifo, shift := x.load.engine.shift
    pendingFlow := x.load.engine.pendingFlow, lastFlow := x.load.engine.lastFlow } } := by
  rcases x.load_cases with h | ⟨ch, h⟩ | ⟨v, tag, rest, h⟩ <;> rw [h]

/-- A second load finds nothing to do. -/
theorem Port.load_load (x : Port) : x.load.load = x.load := by
  rcases x.load_cases with h | ⟨ch, h⟩ | ⟨v, tag, rest, h⟩
  · rw [h, h]
  · exact Port.load_of_not fun m => by simp [h, Port.mayLoad] at m
  · exact Port.load_of_not fun m => by simp [h, Port.mayLoad] at m

/-- A port that changes what no load reads loads the same. -/
theorem Port.load_update {x y : Port} (hr : x.running = y.running) (hs : x.signal = y.signal) (hp : x.profile = y.profile)
    (hi : x.pins = y.pins) (he : x.engine = y.engine) : x.load.engine = y.load.engine := by
  have hb : x.signalIs .breakSignal = y.signalIs .breakSignal := by rw [Port.signalIs, hs, Port.signalIs]
  have hf : x.flowToSend = y.flowToSend := by rw [Port.flowToSend, he, hp, Port.flowToSend]
  have ht : x.fifoStopped = y.fifoStopped := by rw [Port.fifoStopped, he, hp, hi, Port.fifoStopped]
  unfold Port.load
  rw [hr, hb, hf, ht, he]
  repeat' split
  all_goals simp only [he]

/-! ### Lines and pause (R35 to R37, R169) -/

/-- Of a running port the lines that R169 gives are those of `linesOf`. -/
theorem Port.refreshLines_eq {x : Port} (h : x.running = true) : x.refreshLines = { x with lines := linesOf x } := by
  unfold Port.refreshLines Port.autoLines linesOf
  rw [h]
  rfl

/-- The lines of a port follow its flow mode, its pause, its controls and its signal. -/
theorem linesOf_update {x y : Port} (hp : x.profile = y.profile) (hs : x.signal = y.signal)
    (he : x.engine.pause = y.engine.pause) (hl : x.lines = y.lines) : linesOf x = linesOf y := by
  unfold linesOf Port.signalIs
  rw [hp, hs, he, hl]

/-- The pending flow character that matches a pause is the one it asks for, unless that was sent last (R36). -/
theorem matchingFlow_asserted (last : FlowChar) :
    matchingFlow .asserted last = if last = .xoff then none else some .xoff := by cases last <;> rfl
theorem matchingFlow_released (last : FlowChar) :
    matchingFlow .released last = if last = .xon then none else some .xon := by cases last <;> rfl

theorem paused_stands {x : Port} (h : x.portState = .disabled ∨
    (x.engine.pause = .released ∧ x.portUse < x.profile.pauseOn) ∨
    (x.engine.pause = .asserted ∧ x.profile.pauseOff < x.portUse)) : paused x = x := by
  refine if_neg ?_
  rintro ⟨hrun, hturn⟩
  rcases h with h | ⟨h, hu⟩ | ⟨h, hu⟩
  · exact hrun h
  · rw [if_pos h] at hturn; omega
  · rw [if_neg (by simp [h])] at hturn; omega

/-- The pause that asserts: PAUSE is set with it (R35). -/
theorem paused_asserts {x : Port} (hr : x.portState ≠ .disabled) (h : x.engine.pause = .released)
    (hu : x.profile.pauseOn ≤ x.portUse) : paused x = ((x.withPause .asserted).withCondition .pause).load := by
  have hrun : Port.running { x with engine := { x.engine with
      pause := .asserted
      pendingFlow := if x.profile.flow = .soft then matchingFlow .asserted x.engine.lastFlow else x.engine.pendingFlow } }
      = true := (Port.running_iff x).2 hr
  refine (if_pos ⟨hr, by rwa [if_pos h]⟩).trans ?_
  rw [Port.withPause, Port.refreshLines_eq hrun, matchingFlow_asserted]
  simp only [h, if_true]
  rfl

theorem paused_releases {x : Port} (hr : x.portState ≠ .disabled) (h : x.engine.pause = .asserted)
    (hu : x.portUse ≤ x.profile.pauseOff) : paused x = (x.withPause .released).load := by
  have hrun : Port.running { x with engine := { x.engine with
      pause := .released
      pendingFlow := if x.profile.flow = .soft then matchingFlow .released x.engine.lastFlow else x.engine.pendingFlow } }
      = true := (Port.running_iff x).2 hr
  refine (if_pos ⟨hr, by rwa [if_neg (by simp [h])]⟩).trans ?_
  rw [Port.withPause, Port.refreshLines_eq hrun, matchingFlow_released]
  simp only [h, reduceCtorEq, if_false]

/-- Evaluating the pause leaves the port, or turns the pause one way or the other (R35). -/
theorem paused_cases (x : Port) :
    ((x.portState = .disabled ∨ (x.engine.pause = .released ∧ x.portUse < x.profile.pauseOn) ∨
        (x.engine.pause = .asserted ∧ x.profile.pauseOff < x.portUse)) ∧ paused x = x) ∨
    (x.portState ≠ .disabled ∧ x.engine.pause = .released ∧ x.profile.pauseOn ≤ x.portUse ∧
      paused x = ((x.withPause .asserted).withCondition .pause).load) ∨
    (x.portState ≠ .disabled ∧ x.engine.pause = .asserted ∧ x.portUse ≤ x.profile.pauseOff ∧
      paused x = (x.withPause .released).load) := by
  by_cases hr : x.portState = .disabled
  · exact .inl ⟨.inl hr, paused_stands (.inl hr)⟩
  cases h : x.engine.pause with
  | released =>
    by_cases hu : x.profile.pauseOn ≤ x.portUse
    · exact .inr (.inl ⟨hr, rfl, hu, paused_asserts hr h hu⟩)
    · exact .inl ⟨.inr (.inl ⟨rfl, by omega⟩), paused_stands (.inr (.inl ⟨h, by omega⟩))⟩
  | asserted =>
    by_cases hu : x.portUse ≤ x.profile.pauseOff
    · exact .inr (.inr ⟨hr, rfl, hu, paused_releases hr h hu⟩)
    · exact .inl ⟨.inr (.inr ⟨rfl, by omega⟩), paused_stands (.inr (.inr ⟨h, by omega⟩))⟩

theorem changePause_same (p : PortNo) (v : Pause) (s : Part) : SameButNotices
    (s.modPort p fun x => (if v = .asserted then (x.withPause v).withCondition .pause else x.withPause v).load)
    (changePause p v s) := by
  unfold changePause
  cases v with
  | released =>
    simp only [reduceCtorEq, if_false, Part.modPort_modPort]
    exact .refl _
  | asserted =>
    have h := (setCondition_same p .pause (s.modPort p (·.withPause .asserted))).modPort p Port.load
    simpa only [if_true, Part.modPort_modPort] using h

/-- Evaluating the pause of a port does to it what `paused` says, and may offer a notice (R35). -/
theorem evalPause_same (p : PortNo) (s : Part) : SameButNotices (s.modPort p paused) (evalPause p s) := by
  have stands (h : paused (s.port p) = s.port p) : SameButNotices (s.modPort p paused) s := by
    rw [Part.modPort_eq, h, Part.setPort_port_self]
    exact .refl s
  unfold evalPause
  dsimp only
  split
  · next hr =>
    rw [Port.running_iff] at hr
    split
    · next h =>
      split
      · next hu =>
        rw [Part.modPort_eq, paused_asserts hr h hu]
        exact changePause_same p .asserted s
      · next hu => exact stands (paused_stands (.inr (.inl ⟨h, by omega⟩)))
    · next h =>
      split
      · next hu =>
        rw [Part.modPort_eq, paused_releases hr h hu]
        exact changePause_same p .released s
      · next hu => exact stands (paused_stands (.inr (.inr ⟨h, by omega⟩)))
  · next hr => exact stands (paused_stands (.inl (by simpa [Port.running] using hr)))

end Sys2Proof.Machine
end

section
namespace Sys2Proof.Machine
open Sys2Proof.Claims

/-! ### Block records -/

theorem Part.block_id {s : Part} {k : Nat} {b : Block} (h : s.block k = some b) : b.id = k := by
  simpa using List.find?_some h

/-- An update of a block record that keeps its name changes what its name finds, and nothing else. -/
theorem Part.block_modBlock (s : Part) (id : Nat) {f : Block → Block} (hf : ∀ b, (f b).id = b.id) (k : Nat) :
    (s.modBlock id f).block k = if k = id then (s.block k).map f else s.block k := by
  have hg : ((fun b : Block => b.id == k) ∘ fun b => if b.id = id then f b else b) = fun b => b.id == k := by
    funext b
    simp only [Function.comp_apply]
    split_ifs <;> simp [hf]
  unfold Part.modBlock Part.block
  rw [List.find?_map, hg]
  cases hb : s.blocks.find? fun b => b.id == k with
  | none => simp
  | some b =>
    have : b.id = k := Part.block_id (s := s) hb
    simp only [Option.map_some, this]
    split_ifs <;> rfl

/-- The cells of a chain are counted from its blocks alone. -/
theorem Part.chainCells_congr {s t : Part} {p : PortNo} (hc : (t.port p).chain = (s.port p).chain)
    (hb : ∀ k, t.blockCells k = s.blockCells k) : t.chainCells p = s.chainCells p := by
  simp only [Part.chainCells, hc, List.map_congr_left fun k _ => hb k]

/-! ### Closing a block (R86) -/

/-- The port with its open block closed: it stands last in the Block Queue (R86). -/
def Port.closed (x : Port) : Port :=
  match x.openBlock with
  | none => x
  | some id => { x with openBlock := none, gapTimer := none, blockQueue := x.blockQueue ++ [id] }

theorem Port.closed_eq (x : Port) : x.closed = { x with
    openBlock := none, gapTimer := if x.openBlock = none then x.gapTimer else none
    blockQueue := x.blockQueue ++ x.openBlock.toList } := by
  unfold Port.closed
  split
  · next h =>
    simp only [h, if_true, Option.toList_none, List.append_nil]
    rw [← h]
  · next id h => simp [h]

/-- Closing a block changes its port and the close reason of its record (R86). -/
theorem closeBlock_eq (p : PortNo) (r : CloseReason) (s : Part) :
    closeBlock p r s = { s.setPort p (s.port p).closed with blocks := (closeBlock p r s).blocks } := by
  unfold closeBlock Port.closed
  cases h : (s.port p).openBlock with
  | none => simp
  | some id => rfl

theorem closeBlock_port (p : PortNo) (r : CloseReason) (s : Part) : (closeBlock p r s).port p = (s.port p).closed := by
  rw [closeBlock_eq]
  exact Part.port_setPort_self s p _

theorem closeBlock_port_ne {p q : PortNo} (r : CloseReason) (s : Part) (h : q ≠ p) : (closeBlock p r s).port q = s.port q := by
  rw [closeBlock_eq]
  exact Part.port_setPort_ne s p q _ h.symm

theorem closeBlock_block (p : PortNo) (r : CloseReason) (s : Part) (k : Nat) :
    (closeBlock p r s).block k =
      if (s.port p).openBlock = some k then (s.block k).map fun b => { b with closeReason := some r } else s.block k := by
  unfold closeBlock
  cases h : (s.port p).openBlock with
  | none => rfl
  | some id =>
    refine (Part.block_modBlock s id (f := fun b => { b with closeReason := some r }) (fun _ => rfl) k).trans ?_
    simp only [Option.some.injEq, eq_comm]

theorem closeBlock_blockCells (p : PortNo) (r : CloseReason) (s : Part) (k : Nat) :
    (closeBlock p r s).blockCells k = s.blockCells k := by
  unfold Part.blockCells
  rw [closeBlock_block]
  split_ifs
  · cases s.block k <;> rfl
  · rfl

/-! ### Walks of the wait list that have nothing to do (R71) -/

theorem retryPort_of_none_waits (p : PortNo) {s : Part} (h : s.waitList = []) : retryPort p s = s := by
  simp [retryPort, h]

theorem walks_of_none_due (n : Nat) {s : Part} (h : s.walkDue = false) : walks n s = s := by
  cases n <;> simp [walks, h]

theorem settleWalks_of_none_due {s : Part} (h : s.walkDue = false) : settleWalks s = s := walks_of_none_due _ h

theorem settleWalks_of_none_waits {s : Part} (h : s.waitList = []) : settleWalks s = { s with walkDue := false } := by
  cases hd : s.walkDue with
  | false => rw [settleWalks_of_none_due hd, ← hd]
  | true =>
    rw [settleWalks, walks, hd, if_pos rfl, walkOnce, h, List.foldl_nil, walks_of_none_due _ rfl]

/-! ### Accounts that fall while no port waits (R64, R65) -/

/-- From port `x` its account has fallen some times, its pause evaluated each time, and its chain may have lost blocks. -/
inductive AccountFalls (x : Port) : Port → Prop
  | refl : AccountFalls x x
  | fall {y : Port} (n : Nat) : AccountFalls x y → AccountFalls x (paused { y with portUse := y.portUse - n })
  | chain {y : Port} (c : List Nat) : AccountFalls x y → AccountFalls x { y with chain := c }

theorem AccountFalls.trans {x y z : Port} (a : AccountFalls x y) (b : AccountFalls y z) : AccountFalls x z := by
  induction b with
  | refl => exact a
  | fall n _ ih => exact ih.fall n
  | chain c _ ih => exact ih.chain c

/-- The port `x` but for what a fall of its account may move, which is as in `y`: chain, account, conditions, lines, the pause
and the transmit half. -/
def Port.movedAs (x y : Port) : Port :=
  { x with
    engine := { x.engine with
      fifo := y.engine.fifo, shift := y.engine.shift, pendingFlow := y.engine.pendingFlow, lastFlow := y.engine.lastFlow
      pause := y.engine.pause }
    portUse := y.portUse, chain := y.chain, conditions := y.conditions, lines := y.lines }

theorem Port.load_moved (x : Port) : x.load = x.movedAs x.load := by
  rw [Port.load_eq]
  rfl

theorem Port.movedAs_trans {x y z : Port} (a : y = x.movedAs y) (b : z = y.movedAs z) : z = x.movedAs z := by
  rw [a] at b
  exact b

theorem paused_moved (x : Port) : paused x = x.movedAs (paused x) := by
  rcases paused_cases x with ⟨_, h⟩ | ⟨_, _, _, h⟩ | ⟨_, _, _, h⟩ <;> rw [h]
  · rfl
  · exact Port.movedAs_trans (y := (x.withPause .asserted).withCondition .pause) rfl (Port.load_moved _)
  · exact Port.movedAs_trans (y := x.withPause .released) rfl (Port.load_moved _)

@[simp] theorem Port.load_portUse (x : Port) : x.load.portUse = x.portUse := by rw [Port.load_eq]
@[simp] theorem Port.load_chain (x : Port) : x.load.chain = x.chain := by rw [Port.load_eq]
@[simp] theorem Port.load_conditions (x : Port) : x.load.conditions = x.conditions := by rw [Port.load_eq]
@[simp] theorem Port.load_pause (x : Port) : x.load.engine.pause = x.engine.pause := by rw [Port.load_eq]

theorem paused_chain (x : Port) : (paused x).chain = x.chain := by
  rcases paused_cases x with ⟨_, h⟩ | ⟨_, _, _, h⟩ | ⟨_, _, _, h⟩ <;> rw [h]
  · exact Port.load_chain _
  · exact Port.load_chain _

theorem AccountFalls.moved {x y : Port} (h : AccountFalls x y) : y = x.movedAs y := by
  induction h with
  | refl => rfl
  | fall n _ ih => exact Port.movedAs_trans (congrArg (fun z : Port => { z with portUse := z.portUse - n }) ih) (paused_moved _)
  | chain c _ ih => exact congrArg (fun z : Port => { z with chain := c }) ih

/-- The conditions of a port only gain by a fall of its account. -/
theorem paused_conditions {x : Port} {c : Condition} (h : hasCondition x.conditions c = true) :
    hasCondition (paused x).conditions c = true := by
  rcases paused_cases x with ⟨_, e⟩ | ⟨_, _, _, e⟩ | ⟨_, _, _, e⟩ <;> rw [e]
  · exact h
  · rw [Port.load_conditions]
    exact (hasCondition_or _ _ _).trans (by simp [show hasCondition (x.withPause .asserted).conditions c = true from h])
  · rw [Port.load_conditions]
    exact h

theorem AccountFalls.conditions {x y : Port} (h : AccountFalls x y) {c : Condition} (hx : hasCondition x.conditions c = true) :
    hasCondition y.conditions c = true := by
  induction h with
  | refl => exact hx
  | fall n _ ih => exact paused_conditions ih
  | chain c _ ih => exact ih

/-- The lines of the port are those that R169 gives it, a MANUAL line standing as in `base`. -/
def LinesFollow (base : LineDrive) (x : Port) : Prop := x.lines = linesOf { x with lines := base }

/-- Under AUTO a line has its value; a MANUAL line may be taken from another record that has it alike. -/
theorem LinesFollow.of_manual {base old : LineDrive} {y : Port} (hy : y.lines = linesOf { y with lines := old })
    (hr : y.profile.rtsControl ≠ .auto → old.rts = base.rts) (hd : y.profile.dtrControl ≠ .auto → old.dtr = base.dtr)
    (ha : y.profile.auxControl ≠ .auto → old.aux = base.aux) : LinesFollow base y := by
  unfold LinesFollow
  rw [hy]
  simp only [linesOf, Port.signalIs]
  congr 1
  · split_ifs with h
    · rfl
    · rfl
    · exact hr h
  · split_ifs with h
    · rfl
    · rfl
    · exact hd h
  · split_ifs with h
    · rfl
    · rfl
    · exact ha h

theorem LinesFollow.rts {base : LineDrive} {x : Port} (h : LinesFollow base x) (hc : x.profile.rtsControl ≠ .auto) :
    x.lines.rts = base.rts := (congrArg LineDrive.rts h).trans (if_neg hc)
theorem LinesFollow.dtr {base : LineDrive} {x : Port} (h : LinesFollow base x) (hc : x.profile.dtrControl ≠ .auto) :
    x.lines.dtr = base.dtr := (congrArg LineDrive.dtr h).trans (if_neg hc)
theorem LinesFollow.aux {base : LineDrive} {x : Port} (h : LinesFollow base x) (hc : x.profile.auxControl ≠ .auto) :
    x.lines.aux = base.aux := (congrArg LineDrive.aux h).trans (if_neg hc)

theorem LinesFollow.refresh {base : LineDrive} {x y : Port} (h : LinesFollow base x) (hp : y.profile = x.profile)
    (hy : y.lines = linesOf { y with lines := x.lines }) : LinesFollow base y :=
  .of_manual hy (fun hc => h.rts (hp ▸ hc)) (fun hc => h.dtr (hp ▸ hc)) (fun hc => h.aux (hp ▸ hc))

theorem LinesFollow.load {base : LineDrive} {x : Port} (h : LinesFollow base x) : LinesFollow base x.load := by
  rw [Port.load_eq]
  exact h

theorem LinesFollow.withPause {base : LineDrive} {x : Port} (h : LinesFollow base x) (hr : x.portState ≠ .disabled) (v : Pause) :
    LinesFollow base (x.withPause v) := by
  refine .refresh h rfl ?_
  unfold Port.withPause
  rw [Port.refreshLines_eq (by exact (Port.running_iff x).2 hr)]

theorem LinesFollow.paused {base : LineDrive} {x : Port} (h : LinesFollow base x) : LinesFollow base (paused x) := by
  rcases paused_cases x with ⟨_, e⟩ | ⟨hr, _, _, e⟩ | ⟨hr, _, _, e⟩ <;> rw [e]
  · exact h
  · exact .load (x := (x.withPause .asserted).withCondition .pause) (h.withPause hr _)
  · exact .load (h.withPause hr _)

theorem AccountFalls.linesFollow {base : LineDrive} {x y : Port} (h : AccountFalls x y) (hx : LinesFollow base x) :
    LinesFollow base y := by
  induction h with
  | refl => exact hx
  | fall n _ ih => exact .paused ih
  | chain c _ ih => exact ih

/-- The pause of a port that its thresholds have judged, `asserted` before its account fell: ASSERTED stands above pause off. -/
structure PauseFollows (asserted : Prop) [Decidable asserted] (x : Port) : Prop where
  runs : x.portState ≠ .disabled
  ordered : x.profile.pauseOff < x.profile.pauseOn
  pause : x.engine.pause = if asserted ∧ x.profile.pauseOff < x.portUse then .asserted else .released
  below : x.engine.pause = .released → x.portUse < x.profile.pauseOn

theorem PauseFollows.fall {asserted : Prop} [Decidable asserted] {x : Port} (h : PauseFollows asserted x) (n : Nat) :
    PauseFollows asserted (paused { x with portUse := x.portUse - n }) := by
  obtain ⟨hr, ho, hp, hb⟩ := h
  rcases paused_cases { x with portUse := x.portUse - n } with ⟨h, e⟩ | ⟨_, h, hu, e⟩ | ⟨_, h, hu, e⟩ <;> rw [e]
  · refine ⟨hr, ho, ?_, fun hx => Nat.lt_of_le_of_lt (Nat.sub_le _ _) (hb hx)⟩
    rcases h with h | ⟨(h : x.engine.pause = .released), _⟩ | ⟨(h : x.engine.pause = .asserted), hu⟩
    · exact absurd h hr
    · have hno : ¬(asserted ∧ x.profile.pauseOff < x.portUse) := fun hc => by simp [h, hc] at hp
      exact h.trans (if_neg fun hc => hno ⟨hc.1, Nat.lt_of_lt_of_le hc.2 (Nat.sub_le _ _)⟩).symm
    · have hyes : asserted ∧ x.profile.pauseOff < x.portUse := by
        by_contra hc
        simp [h, hc] at hp
      exact h.trans (if_pos ⟨hyes.1, hu⟩).symm
  · exact absurd (Nat.lt_of_le_of_lt (Nat.sub_le _ _) (hb h)) (Nat.not_lt.2 hu)
  · rw [Port.load_eq]
    exact ⟨hr, ho, (if_neg fun hc => Nat.not_lt.2 hu hc.2).symm, fun _ => Nat.lt_of_le_of_lt hu ho⟩

theorem AccountFalls.pauseFollows {asserted : Prop} [Decidable asserted] {x y : Port} (h : AccountFalls x y)
    (hx : PauseFollows asserted x) : PauseFollows asserted y := by
  induction h with
  | refl => exact hx
  | fall n _ ih => exact ih.fall n
  | chain c _ ih => exact ⟨ih.runs, ih.ordered, ih.pause, ih.below⟩

/-! ### Holds that are released while no port waits (R63, R64, R71) -/

/-- The account of a port has fallen once, or nothing has changed. -/
def fallsOnce (x y : Port) : Prop := y = x ∨ ∃ n, y = paused { x with portUse := x.portUse - n }

theorem fallsOnce.falls {x y : Port} (h : fallsOnce x y) : AccountFalls x y := by
  rcases h with rfl | ⟨n, rfl⟩
  · exact .refl
  · exact .fall n .refl

theorem fallsOnce.chain {x y : Port} (h : fallsOnce x y) : y.chain = x.chain := by
  rcases h with rfl | ⟨n, rfl⟩
  · rfl
  · exact paused_chain _

theorem freeBlock_falls (b : Block) (s : Part) (q : PortNo) : fallsOnce (s.port q) ((freeBlock b s).port q) := by
  unfold freeBlock
  dsimp only
  split
  · exact .inl rfl
  · have hp : ∀ q, (s.modPort b.port fun x => { x with portUse := x.portUse - b.cells.length }).port q =
        if b.port = q then { s.port b.port with portUse := (s.port b.port).portUse - b.cells.length } else s.port q :=
      fun q => Part.port_modPort s b.port q _
    rw [(evalPause_same _ _).port, Part.port_modPort]
    split_ifs with hq
    · subst hq
      exact .inr ⟨b.cells.length, congrArg paused ((hp b.port).trans (if_pos rfl))⟩
    · exact .inl ((hp q).trans (if_neg hq))

theorem freeBlock_mem (b : Block) (s : Part) : (freeBlock b s).mem = s.mem ∧ (freeBlock b s).waitList = s.waitList := by
  unfold freeBlock
  dsimp only
  split
  · exact ⟨rfl, rfl⟩
  · exact ⟨(evalPause_same _ _).mem, (evalPause_same _ _).waitList⟩

theorem dropHold_falls (id : Nat) (s : Part) (q : PortNo) : fallsOnce (s.port q) ((dropHold id s).port q) := by
  unfold dropHold
  split
  · exact .inl rfl
  · split
    · exact freeBlock_falls _ s q
    · exact .inl rfl

theorem dropHold_mem (id : Nat) (s : Part) : (dropHold id s).mem = s.mem ∧ (dropHold id s).waitList = s.waitList := by
  unfold dropHold
  split
  · exact ⟨rfl, rfl⟩
  · split
    · exact freeBlock_mem _ s
    · exact ⟨rfl, rfl⟩

/-- While no port waits, releasing a hold is dropping it; no walk stays due behind a freed block (R71). -/
theorem releaseHold_of_none_waits (id : Nat) {s : Part} (h : s.waitList = []) :
    releaseHold id s = { dropHold id s with walkDue := (releaseHold id s).walkDue } := by
  have hw : (dropHold id s).waitList = [] := (dropHold_mem id s).2.trans h
  unfold releaseHold
  split
  · next hb => simp [dropHold, hb]
  · dsimp only
    split
    · rw [retryPort_of_none_waits _ hw, settleWalks_of_none_waits hw]
    · rfl

theorem releaseHold_falls (id : Nat) {s : Part} (h : s.waitList = []) (q : PortNo) :
    fallsOnce (s.port q) ((releaseHold id s).port q) := by
  rw [releaseHold_of_none_waits id h]
  exact dropHold_falls id s q

theorem releaseHold_mem (id : Nat) {s : Part} (h : s.waitList = []) :
    (releaseHold id s).mem = s.mem ∧ (releaseHold id s).waitList = [] := by
  rw [releaseHold_of_none_waits id h]
  exact ⟨(dropHold_mem id s).1, (dropHold_mem id s).2.trans h⟩

/-! ### Trimming a chain while no port waits (R111) -/

/-- What a trim of port p's Output Chain leaves while no port waits: bytes, sessions and queues stand, accounts may have fallen,
and the chain is within its limit. -/
structure Trimmed (p : PortNo) (s t : Part) : Prop extends StoreFrame s t where
  memory : t.mem = s.mem
  waitList : t.waitList = []
  falls : AccountFalls (s.port p) (t.port p)
  within : t.chainCells p ≤ (s.port p).profile.historyLimit

theorem trimLoop_of_within {p : PortNo} {s : Part} (n : Nat) (h : s.chainCells p ≤ (s.port p).profile.historyLimit) :
    trimLoop p n s = s := by
  unfold trimLoop
  split
  · exact if_neg (Nat.not_lt.2 h)
  · rfl

theorem trimLoop_step {p : PortNo} {s : Part} {id : Nat} {rest : List Nat} (n : Nat) (hc : (s.port p).chain = id :: rest)
    (hl : (s.port p).profile.historyLimit < s.chainCells p) :
    trimLoop p (n + 1) s = trimLoop p n (releaseHold id (s.modPort p fun x => { x with chain := rest })) := by
  rw [trimLoop]
  · exact if_pos hl
  · exact hc

theorem Trimmed.of_within {p : PortNo} {s : Part} (n : Nat) (hw : s.waitList = [])
    (h : s.chainCells p ≤ (s.port p).profile.historyLimit) : Trimmed p s (trimLoop p n s) := by
  rw [trimLoop_of_within n h]
  exact { StoreFrame.refl s with memory := rfl, waitList := hw, falls := .refl, within := h }

theorem trimLoop_trimmed (p : PortNo) (n : Nat) (s : Part) (hw : s.waitList = []) (hn : (s.port p).chain.length ≤ n) :
    Trimmed p s (trimLoop p n s) := by
  induction n generalizing s with
  | zero =>
    have hc : (s.port p).chain = [] := List.length_eq_zero_iff.1 (Nat.le_zero.1 hn)
    exact .of_within 0 hw (by simp [Part.chainCells, hc])
  | succ k ih =>
    match hc : (s.port p).chain with
    | [] => exact .of_within _ hw (by simp [Part.chainCells, hc])
    | id :: rest =>
      by_cases hl : (s.port p).profile.historyLimit < s.chainCells p
      · rw [trimLoop_step k hc hl]
        have hp := Part.port_modPort_self s p fun x => { x with chain := rest }
        have hf := releaseHold_falls id (s := s.modPort p fun x => { x with chain := rest }) hw p
        have hm := releaseHold_mem id (s := s.modPort p fun x => { x with chain := rest }) hw
        have hs : StoreFrame s (releaseHold id (s.modPort p fun x => { x with chain := rest })) :=
          (Quiet.modPort s p _ (by constructor <;> first | rfl | exact Or.inl rfl)).toStoreFrame.trans (releaseHold_store id _)
        have ht := ih _ hm.2 (by rw [hf.chain, hp]; simpa [hc] using hn)
        refine { hs.trans ht.toStoreFrame with memory := ht.memory.trans hm.1, waitList := ht.waitList, falls := ?_, within := ?_ }
        · refine AccountFalls.trans (AccountFalls.trans ?_ hf.falls) ht.falls
          rw [hp]
          exact .chain rest .refl
        · rw [← (hs.port p).profile]
          exact ht.within
      · exact .of_within _ hw (Nat.not_lt.1 hl)

theorem trimChain_trimmed (p : PortNo) {s : Part} (hw : s.waitList = []) : Trimmed p s (trimChain p s) :=
  trimLoop_trimmed p _ s hw (le_refl _)

end Sys2Proof.Machine
end

section
namespace Sys2Proof.Machine
open Sys2Proof.Claims

/-! ### The groups of an entry on a running port, while no port waits (R38, R52) -/

/-- The port as an apply of entry `e` leaves it before its chain is trimmed (R38, R52, R86). -/
def Port.taken (x : Port) (e : Profile) : Port := (paused (x.closed.takeProfile e)).enterSoft

theorem Port.enterSoft_eq (x : Port) :
    x.enterSoft = { x with engine := { x.engine with pendingFlow := x.enterSoft.engine.pendingFlow } } := by
  unfold Port.enterSoft
  split <;> rfl

theorem Port.taken_moved (x : Port) (e : Profile) : x.taken e = (x.closed.takeProfile e).movedAs (x.taken e) := by
  refine Port.movedAs_trans (paused_moved _) ?_
  rw [Port.taken, Port.enterSoft_eq]
  rfl

theorem AccountFalls.of_taken {x y : Port} {e : Profile} (h : AccountFalls (x.taken e) y) :
    y = (x.closed.takeProfile e).movedAs y := Port.movedAs_trans (x.taken_moved e) h.moved

/-- What `takeGroups` has done before presence may act, while no port waits for a cell. -/
structure GroupsTaken (p : PortNo) (e : Profile) (s t : Part) : Prop where
  port : AccountFalls ((s.port p).taken e) (t.port p)
  others : ∀ q, q ≠ p → PortKept (s.port q) (t.port q)
  memory : t.mem = s.mem
  sessions : t.sessions = s.sessions
  slots : t.slots = s.slots
  formed : t.formed = s.formed
  queues : t.queues = s.queues
  within : t.chainCells p ≤ e.historyLimit
  untrimmed : s.chainCells p ≤ e.historyLimit → t.port p = (s.port p).taken e

/-- The part whose port p has taken the entry and whose chain is still to be trimmed. -/
def Part.entryTaken (s : Part) (p : PortNo) (e : Profile) : Part :=
  (closeBlock p .portEvent s).setPort p ((s.port p).taken e)

theorem entryTaken_same (p : PortNo) (e : Profile) (s : Part) : SameButNotices (s.entryTaken p e)
    ((evalPause p ((closeBlock p .portEvent s).modPort p fun x => x.takeProfile e)).modPort p Port.enterSoft) := by
  have h := (evalPause_same p ((closeBlock p .portEvent s).modPort p fun x => x.takeProfile e)).modPort p Port.enterSoft
  simpa only [Part.modPort_modPort, Part.modPort_eq, Part.setPort_setPort, Part.port_setPort_self, closeBlock_port,
    Part.entryTaken, Port.taken] using h

theorem entryTaken_fields (p : PortNo) (e : Profile) (s : Part) :
    (s.entryTaken p e).mem = s.mem ∧ (s.entryTaken p e).waitList = s.waitList ∧ (s.entryTaken p e).sessions = s.sessions ∧
    (s.entryTaken p e).slots = s.slots ∧ (s.entryTaken p e).formed = s.formed ∧ (s.entryTaken p e).queues = s.queues := by
  unfold Part.entryTaken
  rw [closeBlock_eq]
  exact ⟨rfl, rfl, rfl, rfl, rfl, rfl⟩

theorem taken_profile (x : Port) (e : Profile) : (x.taken e).profile = e := by rw [Port.taken_moved]; rfl
theorem taken_chain (x : Port) (e : Profile) : (x.taken e).chain = x.chain := by
  rw [Port.taken, Port.enterSoft_eq]
  exact (paused_chain _).trans (by rw [Port.closed_eq]; rfl)

/-- The groups of an entry taken, and presence still to act (R52). -/
theorem groupsTaken (p : PortNo) (e : Profile) {s : Part} (hw : s.waitList = []) :
    ∃ t, GroupsTaken p e s t ∧
      takeGroups p e s = if (t.port p).presence && (t.port p).portState != .localHold then enterLocalHold p t else t := by
  obtain ⟨s2, hs2⟩ : ∃ s2, (evalPause p ((closeBlock p .portEvent s).modPort p fun x => x.takeProfile e)).modPort p
    Port.enterSoft = s2 := ⟨_, rfl⟩
  have same : SameButNotices (s.entryTaken p e) s2 := hs2 ▸ entryTaken_same p e s
  obtain ⟨hmem, hwait, hsess, hslots, hformed, hqueues⟩ := entryTaken_fields p e s
  have hport : s2.port p = (s.port p).taken e := (same.port p).trans (Part.port_setPort_self _ p _)
  have hother (q : PortNo) (h : q ≠ p) : s2.port q = s.port q :=
    (same.port q).trans ((Part.port_setPort_ne _ p q _ h.symm).trans (closeBlock_port_ne _ s h))
  have hw2 : s2.waitList = [] := (same.waitList.trans hwait).trans hw
  have hcells : s2.chainCells p = s.chainCells p := by
    refine Part.chainCells_congr (by rw [hport, taken_chain]) fun k => ?_
    rw [← closeBlock_blockCells p .portEvent s k]
    simp only [Part.blockCells, same.block]
    rfl
  have ht := trimChain_trimmed p hw2
  have huntrimmed : s.chainCells p ≤ e.historyLimit → trimChain p s2 = s2 := fun hl =>
    trimLoop_of_within _ (by rw [hcells, hport, taken_profile]; exact hl)
  have e1 : takeGroups p e s = let u := settleWalks (retryPort p (trimChain p s2))
      if (u.port p).presence && (u.port p).portState != .localHold then enterLocalHold p u else u := by
    subst hs2
    rfl
  generalize trimChain p s2 = t at ht huntrimmed e1
  rw [retryPort_of_none_waits p ht.waitList, settleWalks_of_none_waits ht.waitList] at e1
  refine ⟨{ t with walkDue := false }, ?_, e1⟩
  exact {
    port := hport ▸ ht.falls
    others := fun q h => hother q h ▸ ht.port q
    memory := (ht.memory.trans same.mem).trans hmem
    sessions := (ht.sessions.trans same.sessions).trans hsess
    slots := (ht.slots.trans same.slots).trans hslots
    formed := (ht.formed.trans same.formed).trans hformed
    queues := (ht.queues.trans same.queues).trans hqueues
    within := by
      have := ht.within
      rwa [hport, taken_profile] at this
    untrimmed := fun hl => (congrArg (fun u => Part.port u p) (huntrimmed hl)).trans hport }

/-! ### Presence that asserts on a running port (R57) -/

/-- What `enterLocalHold` brings, on a port not in RECONFIG. -/
structure LocalHoldEntered (p : PortNo) (s t : Part) : Prop where
  port : t.port p = takenOver (s.ownerOf p).isSome (s.port p)
  others : ∀ q, q ≠ p → t.port q = s.port q
  session : ∀ n, t.session n = if s.ownerOf p = some n then { s.session n with role := .observer } else s.session n
  memory : t.mem = s.mem
  queues : t.queues = s.queues
  blocks : t.blocks = s.blocks
  noSignal : (s.port p).signal = none → t.slots = s.slots ∧ t.formed = s.formed
  aborted : ∀ g h, (s.port p).signal = some g → s.slot g.slot = .reserved h →
    t.slots = s.slots.set g.slot (.formed h .aborted g.data) ∧ t.formed = s.formed ++ [g.slot]

theorem ownerOf_owns {s : Part} {p : PortNo} {n : SessionNo} (h : s.ownerOf p = some n) : s.owns n p = true := by
  simpa using List.find?_some h

theorem owns_port {s : Part} {p : PortNo} {n : SessionNo} (h : s.owns n p = true) : (s.session n).port = p := by
  simp only [Part.owns, Bool.and_eq_true, beq_iff_eq] at h
  exact h.1.2

/-- The part whose owner of port p, if it has one, is an observer, and whose HELD head of p is then RETRY (R130, R104). -/
def Part.ownerDemoted (s : Part) (p : PortNo) : Part :=
  match s.ownerOf p with
  | some n => (s.modSession n fun x => { x with role := .observer }).modPort p retried
  | none => s

theorem demoteOwner_same (p : PortNo) (r : EventReason) (taker : Option SessionNo) (s : Part) :
    SameButNotices (s.ownerDemoted p) (match s.ownerOf p with | some n => demote n r taker s | none => s) := by
  unfold Part.ownerDemoted
  cases h : s.ownerOf p with
  | none => exact .refl s
  | some n =>
    let s1 := s.modSession n fun x => { x with role := .observer }
    have ho := offerNotice_same (sessionEvent n (s1.session n) r taker (s1.addressOf n)) s1
    have hp : ((offerNotice (sessionEvent n (s1.session n) r taker (s1.addressOf n)) s1).session n).port = p := by
      rw [(offerNotice_quiet _ s1).session, Part.session_modSession_self]
      exact owns_port (ownerOf_owns h)
    have hd : demote n r taker s =
        (offerNotice (sessionEvent n (s1.session n) r taker (s1.addressOf n)) s1).modPort p retried := by
      show Part.modPort _ ((offerNotice (sessionEvent n (s1.session n) r taker (s1.addressOf n)) s1).session n).port retried = _
      rw [hp]
    show SameButNotices _ (demote n r taker s)
    rw [hd]
    exact ho.modPort p retried

/-- The part whose signal on port p, if it has one, has ended early (R174). -/
theorem abortSignal_eq (p : PortNo) (s : Part) : abortSignal p s =
    { s.setPort p (if (s.port p).signal = none then s.port p else (s.port p).dropSignal true) with
      slots := (abortSignal p s).slots, formed := (abortSignal p s).formed } := by
  unfold abortSignal
  cases h : (s.port p).signal with
  | none => simp
  | some g =>
    rcases formReply_cases g.slot .aborted g.data (s.modPort p fun x => x.dropSignal true) with ⟨_, _, e⟩ | ⟨_, e⟩ <;>
      simp only [e, reduceCtorEq, if_false] <;> rfl

theorem abortSignal_noSignal {p : PortNo} {s : Part} (h : (s.port p).signal = none) : abortSignal p s = s := by
  simp [abortSignal, h]

theorem abortSignal_reply {p : PortNo} {s : Part} {g : Signal} {r : ReqHeader} (h : (s.port p).signal = some g)
    (hr : s.slot g.slot = .reserved r) : (abortSignal p s).slots = s.slots.set g.slot (.formed r .aborted g.data) ∧
      (abortSignal p s).formed = s.formed ++ [g.slot] := by
  have hr' : (s.modPort p fun x => x.dropSignal true).slot g.slot = .reserved r := hr
  simp only [abortSignal, h, formReply, hr']
  exact ⟨rfl, rfl⟩

theorem dropSignal_eq {x : Port} (early : Bool) (h : x.running = true) : x.dropSignal early = { x with
    signal := none
    lines := linesOf { x with
      signal := none, lines := if early && x.signalIs .auxPulse then { x.lines with aux := .deassert } else x.lines } } := by
  unfold Port.dropSignal
  rw [Port.refreshLines_eq (by exact h)]

/-- The port that presence takes, its FIFO flushed, before its signal ends early (R57). -/
def Port.held (owned : Bool) (x : Port) : Port :=
  { x with
    portState := .localHold, engine := { x.engine with fifo := [] }
    headHold := if owned = true ∧ x.headHold = .held then .retry else x.headHold }

theorem held_eq (owned : Bool) (x : Port) :
    { (if owned then retried x else x) with
      engine := { (if owned then retried x else x).engine with fifo := [] }, portState := .localHold } = x.held owned := by
  unfold Port.held retried
  cases owned with
  | false => simp
  | true =>
    simp only [if_true, true_and]
    split_ifs <;> rfl

/-- The port on which presence asserts, step by step (R57, R174). -/
theorem takenOver_eq {x : Port} (owned : Bool) (hr : x.portState ≠ .reconfig) : takenOver owned x =
    (if x.signal = none then x.held owned else (x.held owned).dropSignal true).withCondition .localPresence := by
  cases h : x.signal with
  | none =>
    simp only [takenOver, hr, if_false, h, Port.held, Port.withCondition, if_true]
  | some g =>
    rw [if_neg (by simp), dropSignal_eq true (by rfl)]
    have ha : (x.held owned).signalIs .auxPulse = (g.kind == .auxPulse) := by simp [Port.held, Port.signalIs, h]
    rw [ha]
    simp only [takenOver, hr, if_false, h, Port.held, Port.withCondition, Bool.true_and, beq_iff_eq]
    rfl

theorem ownerDemoted_port (p : PortNo) (s : Part) :
    (s.ownerDemoted p).port p = if (s.ownerOf p).isSome then retried (s.port p) else s.port p := by
  unfold Part.ownerDemoted
  cases s.ownerOf p with
  | none => rfl
  | some n => exact Part.port_modPort_self _ p retried

theorem ownerDemoted_port_ne {p q : PortNo} (s : Part) (h : q ≠ p) : (s.ownerDemoted p).port q = s.port q := by
  unfold Part.ownerDemoted
  cases s.ownerOf p with
  | none => rfl
  | some n => exact Part.port_modPort_ne _ p q retried h.symm

theorem ownerDemoted_session (p : PortNo) (s : Part) (n : SessionNo) : (s.ownerDemoted p).session n =
    if s.ownerOf p = some n then { s.session n with role := .observer } else s.session n := by
  unfold Part.ownerDemoted
  cases s.ownerOf p with
  | none => rfl
  | some m =>
    rw [Part.modPort_session, Part.session_modSession]
    simp only [Option.some.injEq]
    split_ifs with h
    · rw [h]
    · rfl

/-- A demotion changes the sessions and one port alone. -/
theorem ownerDemoted_eq (p : PortNo) (s : Part) :
    s.ownerDemoted p = { s with sessions := (s.ownerDemoted p).sessions, ports := (s.ownerDemoted p).ports } := by
  unfold Part.ownerDemoted
  cases s.ownerOf p <;> rfl

theorem enterLocalHold_entered (p : PortNo) {s : Part} (hr : (s.port p).portState ≠ .reconfig) :
    LocalHoldEntered p s (enterLocalHold p s) := by
  let hold : Port → Port := fun x => { x with engine := { x.engine with fifo := [] }, portState := .localHold }
  let u := (s.ownerDemoted p).modPort p hold
  have hu : SameButNotices u ((match s.ownerOf p with | some n => demote n .localPresence none s | none => s).modPort p hold) :=
    (demoteOwner_same p .localPresence none s).modPort p hold
  have he : enterLocalHold p s = setCondition p .localPresence
      (abortSignal p ((match s.ownerOf p with | some n => demote n .localPresence none s | none => s).modPort p hold)) := rfl
  rw [he]
  generalize (match s.ownerOf p with | some n => demote n .localPresence none s | none => s).modPort p hold = v at hu
  have hp : v.port p = (s.port p).held (s.ownerOf p).isSome := by
    rw [hu.port, Part.port_modPort_self, ownerDemoted_port]
    exact held_eq _ _
  have hsig : (v.port p).signal = (s.port p).signal := by rw [hp]; rfl
  have hq (q : PortNo) (h : q ≠ p) : v.port q = s.port q :=
    (hu.port q).trans ((Part.port_modPort_ne _ p q hold h.symm).trans (ownerDemoted_port_ne s h))
  have hrest : u = { s with sessions := u.sessions, ports := u.ports } := by
    unfold u
    rw [ownerDemoted_eq]
    rfl
  have hc := setCondition_same p .localPresence (abortSignal p v)
  have ha := abortSignal_eq p v
  have hvs : v.slots = s.slots := hu.slots.trans (by rw [hrest])
  have hvf : v.formed = s.formed := hu.formed.trans (by rw [hrest])
  exact {
    port := by
      rw [hc.port, Part.port_modPort_self, takenOver_eq _ hr, ha, ← hsig, ← hp]
      exact congrArg (Port.withCondition · .localPresence) (Part.port_setPort_self v p _)
    others := fun q h => by
      rw [hc.port, Part.port_modPort_ne _ _ _ _ h.symm, ha, ← hq q h]
      exact Part.port_setPort_ne v p q _ h.symm
    session := fun n => by
      have e1 : (setCondition p .localPresence (abortSignal p v)).session n = v.session n := by
        rw [(setCondition_quiet _ _ _).session, ha]
        rfl
      rw [e1, ← ownerDemoted_session]
      simp only [Part.session, hu.sessions]
      rfl
    memory := by
      rw [hc.mem, Part.modPort_mem, ha]
      exact hu.mem.trans (by rw [hrest])
    queues := by
      rw [hc.queues, Part.modPort_queues, ha]
      exact hu.queues.trans (by rw [hrest])
    blocks := by
      rw [hc.blocks, Part.modPort_blocks, ha]
      exact hu.blocks.trans (by rw [hrest])
    noSignal := fun h => by
      rw [hc.slots, hc.formed, abortSignal_noSignal (hsig.trans h)]
      exact ⟨hvs, hvf⟩
    aborted := fun g r hg hk => by
      have := abortSignal_reply (hsig.trans hg) (show v.slot g.slot = .reserved r by rw [Part.slot, hvs]; exact hk)
      rw [hc.slots, hc.formed, ← hvs, ← hvf]
      exact this }

end Sys2Proof.Machine
end

section
namespace Sys2Proof.Machine
open Sys2Proof.Claims

/-! ### An apply on a running port, while no port waits (R38, R52, R57) -/

theorem Port.closed_running (x : Port) : x.closed.running = x.running := by rw [Port.closed_eq]; rfl

theorem Port.closed_lines (x : Port) : x.closed.lines = x.lines := by rw [Port.closed_eq]
theorem Port.closed_engine (x : Port) : x.closed.engine = x.engine := by rw [Port.closed_eq]
theorem Port.closed_portState (x : Port) : x.closed.portState = x.portState := by rw [Port.closed_eq]
theorem Port.closed_portUse (x : Port) : x.closed.portUse = x.portUse := by rw [Port.closed_eq]

theorem takeProfile_lines {x : Port} (e : Profile) (h : x.portState ≠ .disabled) :
    LinesFollow x.lines (x.closed.takeProfile e) := by
  unfold LinesFollow
  have hr : x.closed.running = true := by rw [Port.closed_running]; exact (Port.running_iff x).2 h
  unfold Port.takeProfile
  rw [Port.refreshLines_eq (by exact hr), ← Port.closed_lines x]

/-- The lines of the port once it has taken the entry are those of the new controls (R169). -/
theorem taken_lines {x : Port} (e : Profile) (h : x.portState ≠ .disabled) : LinesFollow x.lines (x.taken e) := by
  unfold Port.taken
  rw [Port.enterSoft_eq]
  exact (takeProfile_lines e h).paused

/-- A pause that has been evaluated is as its thresholds judge the account (R35). -/
theorem paused_follows {x : Port} (h : x.portState ≠ .disabled) (ho : x.profile.pauseOff < x.profile.pauseOn) :
    PauseFollows (if x.engine.pause = .released then x.profile.pauseOn ≤ x.portUse else x.profile.pauseOff < x.portUse)
      (paused x) := by
  rcases paused_cases x with ⟨hs, e⟩ | ⟨_, hp, hu, e⟩ | ⟨_, hp, hu, e⟩ <;> rw [e]
  · rcases hs with hs | ⟨hp, hu⟩ | ⟨hp, hu⟩
    · exact absurd hs h
    · exact ⟨h, ho, by simp [hp, Nat.not_le.2 hu], fun _ => hu⟩
    · refine ⟨h, ho, ?_, fun hc => by simp [hp] at hc⟩
      simp [hp, hu]
  · rw [Port.load_eq]
    refine ⟨h, ho, ?_, fun hc => ?_⟩
    · show Pause.asserted = _
      exact (if_pos ⟨by simp [hp, hu], Nat.lt_of_lt_of_le ho hu⟩).symm
    · exact absurd (show Pause.asserted = .released from hc) (by simp)
  · rw [Port.load_eq]
    refine ⟨h, ho, ?_, fun _ => Nat.lt_of_le_of_lt hu ho⟩
    show Pause.released = _
    exact (if_neg fun hc => Nat.not_lt.2 hu hc.2).symm

/-- The pause of the port once it has taken the entry is that of the new thresholds (R35, R38). -/
theorem taken_pause {x : Port} (e : Profile) (h : x.portState ≠ .disabled) (ho : e.pauseOff < e.pauseOn) :
    PauseFollows (if x.engine.pause = .released then e.pauseOn ≤ x.portUse else e.pauseOff < x.portUse) (x.taken e) := by
  have hf := paused_follows (x := x.closed.takeProfile e) (by rw [← Port.closed_portState] at h; exact h) ho
  unfold Port.taken
  rw [Port.enterSoft_eq]
  rw [Port.closed_eq] at hf ⊢
  exact ⟨hf.runs, hf.ordered, hf.pause, hf.below⟩

theorem taken_pauseCondition {x : Port} (e : Profile) (h : x.portState ≠ .disabled) (hp : x.engine.pause = .released)
    (hu : e.pauseOn ≤ x.portUse) : hasCondition (x.taken e).conditions .pause = true := by
  unfold Port.taken
  rw [Port.enterSoft_eq]
  have : paused (x.closed.takeProfile e) = _ := paused_asserts (x := x.closed.takeProfile e) ?_ ?_ ?_
  · simp only [this, Port.load_conditions, Port.withCondition, hasCondition_or, hasCondition_bit, Bool.or_true]
  · rw [← Port.closed_portState] at h; exact h
  · rw [← Port.closed_engine] at hp; exact hp
  · rw [← Port.closed_portUse] at hu; exact hu

/-- A pause that is evaluated on two ports alike in what it reads leaves their engines alike (R35, R36). -/
theorem paused_update {x y : Port} (hr : x.running = y.running) (hs : x.signal = y.signal) (hp : x.profile = y.profile)
    (hi : x.pins = y.pins) (he : x.engine = y.engine) (hu : x.portUse = y.portUse) :
    (paused x).engine = (paused y).engine := by
  have hd : x.portState = .disabled ↔ y.portState = .disabled := by
    simpa [Port.running] using congrArg (· = false) hr
  have hw (v : Pause) : (x.withPause v).engine = (y.withPause v).engine := by
    simp only [Port.withPause, Port.refreshLines, he, hp]
  rcases paused_cases x with ⟨hx, e⟩ | ⟨hx, h1, h2, e⟩ | ⟨hx, h1, h2, e⟩ <;> rw [e]
  · rw [hd, he, hp, hu] at hx
    rw [paused_stands hx, he]
  · rw [paused_asserts (mt hd.2 hx) (he ▸ h1) (hp ▸ hu ▸ h2)]
    exact Port.load_update hr hs hp hi (hw _)
  · rw [paused_releases (mt hd.2 hx) (he ▸ h1) (hp ▸ hu ▸ h2)]
    exact Port.load_update hr hs hp hi (hw _)

/-- Entering flow SOFT makes XOFF pending under an ASSERTED pause unless XOFF was sent last (R38). -/
theorem Port.enterSoft_engine (x : Port) : x.enterSoft.engine =
    if x.profile.flow = .soft ∧ x.engine.pause = .asserted ∧ x.engine.lastFlow = .xon then
      { x.engine with pendingFlow := some .xoff } else x.engine := by
  have : x.engine.lastFlow ≠ .xoff ↔ x.engine.lastFlow = .xon := by cases x.engine.lastFlow <;> simp
  simp only [Port.enterSoft, this]
  split_ifs <;> rfl

/-- The port that takes up an entry as `takenUp` has it, before its pause is evaluated (R38). -/
def Port.takingUp (x : Port) (e : Profile) : Port :=
  { x with
    profile := e
    engine := { x.engine with
      receiver := .waitMark, consoleStopped := false
      pendingFlow := if x.profile.flow = FlowMode.soft ∧ x.engine.lastFlow = FlowChar.xoff then some .xon else none } }

theorem takenUp_eq (x : Port) (e : Profile) :
    takenUp x e = { paused { x.takingUp e with lines := linesOf (x.takingUp e) } with engine := (takenUp x e).engine } := by
  unfold takenUp Port.takingUp
  dsimp only
  split_ifs <;> rfl

theorem takenUp_engine (x : Port) (e : Profile) :
    let z := paused { x.takingUp e with lines := linesOf (x.takingUp e) }
    (takenUp x e).engine = if e.flow = .soft ∧ z.engine.pause = .asserted ∧ z.engine.lastFlow = .xon then
      { z.engine with pendingFlow := some .xoff } else z.engine := by
  unfold takenUp Port.takingUp
  dsimp only
  split_ifs <;> rfl

/-- The engine of a port that has taken an entry is the one `takenUp` gives (R38). -/
theorem taken_engine (x : Port) (e : Profile) : (x.taken e).engine = (takenUp x e).engine := by
  have hp : (paused (x.closed.takeProfile e)).profile = e := by rw [paused_moved]; rfl
  have he : (paused (x.closed.takeProfile e)).engine =
      (paused { x.takingUp e with lines := linesOf (x.takingUp e) }).engine := by
    rw [Port.closed_eq]
    exact paused_update rfl rfl rfl rfl rfl rfl
  rw [takenUp_engine, Port.taken, Port.enterSoft_engine, hp, he]

theorem takenUp_stands (x : Port) (e : Profile) : (takenUp x e).profile = e ∧ (takenUp x e).portState = x.portState ∧
    (takenUp x e).signal = x.signal ∧ (takenUp x e).pins = x.pins := by
  rw [takenUp_eq, paused_moved]
  exact ⟨rfl, rfl, rfl, rfl⟩

/-- The entry finds presence asserted on port p, which is not in LOCAL_HOLD yet (R52, R57). -/
def meetsPresence (p : PortNo) (e : Profile) (s : Part) : Prop :=
  e.presenceSource = .dsr ∧ (s.port p).dsrDebounced = true ∧ (s.port p).portState ≠ .localHold

/-- What an apply of entry `e` to port p has done, while no port waits for a cell; `met` says that it met presence. -/
structure EntryApplied (p : PortNo) (e : Profile) (met : Prop) [Decidable met] (s t : Part) : Prop where
  port : t.port p = { ((s.port p).closed.takeProfile e).movedAs (t.port p) with
    portState := if met then .localHold else (s.port p).portState
    signal := if met then none else (s.port p).signal }
  pause : (s.port p).portState ≠ .disabled → e.pauseOff < e.pauseOn →
    let x := s.port p
    PauseFollows (if x.engine.pause = .released then e.pauseOn ≤ x.portUse else e.pauseOff < x.portUse) (t.port p)
  pauseSet : (s.port p).portState ≠ .disabled → (s.port p).engine.pause = .released → e.pauseOn ≤ (s.port p).portUse →
    hasCondition (t.port p).conditions .pause = true
  lines : (s.port p).portState ≠ .disabled → LinesFollow
    (if met ∧ (s.port p).signalIs .auxPulse = true then { (s.port p).lines with aux := .deassert } else (s.port p).lines) (t.port p)
  engine : s.chainCells p ≤ e.historyLimit →
    (t.port p).engine = if met then { (takenUp (s.port p) e).engine with fifo := [] } else (takenUp (s.port p) e).engine
  present : met → hasCondition (t.port p).conditions .localPresence = true
  within : t.chainCells p ≤ e.historyLimit
  others : ∀ q, q ≠ p → PortKept (s.port q) (t.port q)
  session : ∀ n, t.session n = if met ∧ s.ownerOf p = some n then { s.session n with role := .observer } else s.session n
  memory : t.mem = s.mem
  queues : t.queues = s.queues
  noSignal : ¬met ∨ (s.port p).signal = none → t.slots = s.slots ∧ t.formed = s.formed
  aborted : ∀ g h, met → (s.port p).signal = some g → s.slot g.slot = .reserved h →
    t.slots = s.slots.set g.slot (.formed h .aborted g.data) ∧ t.formed = s.formed ++ [g.slot]

theorem SameButNotices.applied {p : PortNo} {e : Profile} {met : Prop} [Decidable met] {s t u : Part} (a : SameButNotices t u)
    (h : EntryApplied p e met s t) : EntryApplied p e met s u := by
  obtain ⟨m, b, rfl⟩ := a
  exact ⟨h.port, h.pause, h.pauseSet, h.lines, h.engine, h.present, h.within, h.others, h.session, h.memory, h.queues,
    h.noSignal, h.aborted⟩

/-- The entry meets no presence: its groups are taken, and that is all. -/
theorem GroupsTaken.applied {p : PortNo} {e : Profile} {met : Prop} [Decidable met] {s t : Part} (h : GroupsTaken p e s t)
    (hm : ¬met) : EntryApplied p e met s t where
  port := by
    rw [if_neg hm, if_neg hm]
    refine h.port.of_taken.trans ?_
    rw [Port.closed_eq]
    rfl
  pause hr ho := h.port.pauseFollows (taken_pause e hr ho)
  pauseSet hr hp hu := h.port.conditions (taken_pauseCondition e hr hp hu)
  lines hr := by
    rw [if_neg fun hc => hm hc.1]
    exact h.port.linesFollow (taken_lines e hr)
  engine hl := by rw [if_neg hm, h.untrimmed hl, taken_engine]
  present hc := absurd hc hm
  within := h.within
  others := h.others
  session n := by
    rw [if_neg fun hc => hm hc.1]
    simp only [Part.session, h.sessions]
  memory := h.memory
  queues := h.queues
  noSignal _ := ⟨h.slots, h.formed⟩
  aborted _ _ hc := absurd hc hm

theorem takenOver_moved {x : Port} (owned : Bool) (hr : x.portState ≠ .reconfig) (hh : x.headHold ≠ .held) :
    takenOver owned x = { x.movedAs (takenOver owned x) with portState := .localHold, signal := none } := by
  simp only [takenOver, Port.movedAs, hr, hh, if_false, and_false]

theorem Port.movedAs_held {x y z : Port} (a : y = x.movedAs y)
    (b : z = { y.movedAs z with portState := .localHold, signal := none }) :
    z = { x.movedAs z with portState := .localHold, signal := none } := by
  rw [a] at b
  exact b

/-- A port that has taken an entry has no HELD head (R106). -/
theorem takeProfile_head (x : Port) (e : Profile) : (x.takeProfile e).headHold ≠ .held ∧
    ((x.takeProfile e).headHold = .forfeit ↔ x.headHold = .forfeit) := by
  have h : (x.takeProfile e).headHold = if x.headHold == .held || x.headHold == .retry then .noHold else x.headHold := rfl
  rw [h]
  cases x.headHold <;> decide

/-- The lines of a port that presence takes: a signal's line returns, AUX to DEASSERT (R57, R169, R174). -/
theorem takenOver_lines {x : Port} {base : LineDrive} (owned : Bool) (h : LinesFollow base x) :
    LinesFollow (if x.signalIs .auxPulse = true then { base with aux := .deassert } else base) (takenOver owned x) := by
  cases hs : x.signal with
  | none =>
    rw [if_neg (by simp [Port.signalIs, hs])]
    have e : (takenOver owned x).lines = x.lines := by simp only [takenOver, hs]
    unfold LinesFollow
    rw [e, h]
    exact linesOf_update rfl hs rfl rfl
  | some g =>
    have hk : x.signalIs .auxPulse = true ↔ g.kind = .auxPulse := by simp [Port.signalIs, hs]
    have e : (takenOver owned x).lines = linesOf { takenOver owned x with
        lines := if g.kind = .auxPulse then { x.lines with aux := .deassert } else x.lines } := by
      simp only [takenOver, hs]
      exact linesOf_update rfl rfl rfl rfl
    simp only [hk]
    refine .of_manual e (fun hc => ?_) (fun hc => ?_) (fun hc => ?_)
    · split_ifs <;> exact h.rts hc
    · split_ifs <;> exact h.dtr hc
    · split_ifs
      · rfl
      · exact h.aux hc

/-- The entry meets presence: its groups are taken, and the port is in LOCAL_HOLD (R57). -/
theorem GroupsTaken.applied_met {p : PortNo} {e : Profile} {met : Prop} [Decidable met] {s g t : Part} (h : GroupsTaken p e s g)
    (hl : LocalHoldEntered p g t) (hm : met) (hr : (s.port p).portState ≠ .reconfig) : EntryApplied p e met s t := by
  have hmoved : g.port p = ((s.port p).closed.takeProfile e).movedAs (g.port p) := h.port.of_taken
  have hstate : (g.port p).portState = (s.port p).portState := by rw [hmoved, Port.closed_eq]; rfl
  have hsignal : (g.port p).signal = (s.port p).signal := by rw [hmoved, Port.closed_eq]; rfl
  have hhead : (g.port p).headHold ≠ .held := by rw [hmoved]; exact (takeProfile_head _ e).1
  have howner : g.ownerOf p = s.ownerOf p := by simp only [Part.ownerOf, Part.owns, Part.session, h.sessions]
  exact {
    port := by
      rw [if_pos hm, if_pos hm]
      refine Port.movedAs_held hmoved ?_
      rw [hl.port]
      exact takenOver_moved _ (hstate ▸ hr) hhead
    pause := fun hd ho => by
      have hp := h.port.pauseFollows (taken_pause e hd ho)
      rw [hl.port]
      exact ⟨by simp [takenOver], hp.ordered, hp.pause, hp.below⟩
    pauseSet := fun hd hp hu => by
      have hc := h.port.conditions (taken_pauseCondition e hd hp hu)
      rw [hl.port]
      exact (hasCondition_or _ _ _).trans (by rw [hc, Bool.true_or])
    lines := fun hd => by
      have hf := takenOver_lines (g.ownerOf p).isSome (h.port.linesFollow (taken_lines e hd))
      rw [hl.port]
      simpa only [Port.signalIs, hsignal, hm, true_and] using hf
    engine := fun hc => by
      rw [if_pos hm, hl.port, ← taken_engine, ← h.untrimmed hc]
      rfl
    present := fun _ => by
      rw [hl.port]
      exact (hasCondition_or _ _ _).trans (by rw [hasCondition_bit, Bool.or_true])
    within := by
      refine le_of_eq_of_le (Part.chainCells_congr ?_ fun k => ?_) h.within
      · rw [hl.port]; rfl
      · simp only [Part.blockCells, Part.block, hl.blocks]
    others := fun q hq => hl.others q hq ▸ h.others q hq
    session := fun n => by
      rw [hl.session, howner, show g.session n = s.session n by simp only [Part.session, h.sessions]]
      simp only [hm, true_and]
    memory := hl.memory.trans h.memory
    queues := hl.queues.trans h.queues
    noSignal := fun hn => by
      have := hl.noSignal (hsignal.trans (hn.resolve_left (not_not.2 hm)))
      exact ⟨this.1.trans h.slots, this.2.trans h.formed⟩
    aborted := fun k r _ hk hs => by
      have := hl.aborted k r (hsignal.trans hk) (by rw [Part.slot, h.slots]; exact hs)
      rwa [h.slots, h.formed] at this }

/-- An apply of an entry to a port that is not in RECONFIG, while no port waits for a cell (R38, R52, R57). -/
theorem applyProfile_applied (p : PortNo) (e : Profile) {s : Part} (met : Prop) [Decidable met] (hmet : met ↔ meetsPresence p e s)
    (hw : s.waitList = []) (hr : (s.port p).portState ≠ .reconfig) : EntryApplied p e met s (applyProfile p e s) := by
  let s0 : Part := { s with notices := [], noticesLost := false }
  refine (inTableOrder_same p (takeGroups p e) s).applied ?_
  obtain ⟨g, hg, heq⟩ := groupsTaken p e (s := s0) hw
  have hg : GroupsTaken p e s g := ⟨hg.port, hg.others, hg.memory, hg.sessions, hg.slots, hg.formed, hg.queues, hg.within, hg.untrimmed⟩
  have hmoved : g.port p = ((s.port p).closed.takeProfile e).movedAs (g.port p) := hg.port.of_taken
  have hcond : ((g.port p).presence && (g.port p).portState != .localHold) = true ↔ met := by
    rw [hmet, hmoved, Port.closed_eq]
    simp [Port.presence, meetsPresence, Port.movedAs, Port.takeProfile, Port.refreshLines, and_assoc]
  rw [heq]
  by_cases hm : met
  · rw [if_pos (hcond.2 hm)]
    refine hg.applied_met (enterLocalHold_entered p ?_) hm hr
    rw [hmoved, Port.closed_eq]
    exact hr
  · rw [if_neg (mt hcond.1 hm)]
    exact hg.applied hm

end Sys2Proof.Machine
end

section
namespace Sys2Proof.Machine
open Sys2Proof.Claims

/-! ### A profile load that comes to its moment, while no port waits (R47, R50 to R52, R57) -/

/-- The port whose pending load has come to its moment: RECONFIG ends (R50, R51). -/
def Port.resumed (x : Port) : Port :=
  { x with
    pendingLoad := none, reconfigTimer := none
    portState := if x.portState = .reconfig then .active else x.portState }

theorem Port.resumed_disabled (x : Port) : x.resumed.portState = .disabled ↔ x.portState = .disabled := by
  unfold Port.resumed
  cases x.portState <;> simp

theorem Port.resumed_running (x : Port) : x.resumed.running = x.running := by
  rw [Bool.eq_iff_iff, Port.running_iff, Port.running_iff, not_iff_not, Port.resumed_disabled]

theorem Port.resumed_not_reconfig (x : Port) : x.resumed.portState ≠ .reconfig := by
  unfold Port.resumed
  cases x.portState <;> simp

theorem Port.resumed_localHold (x : Port) : x.resumed.portState = .localHold ↔ x.portState = .localHold := by
  unfold Port.resumed
  cases x.portState <;> simp

theorem takenUp_resumed (x : Port) (e : Profile) : (takenUp x.resumed e).engine = (takenUp x e).engine := by
  have h : (paused { x.resumed.takingUp e with lines := linesOf (x.resumed.takingUp e) }).engine =
      (paused { x.takingUp e with lines := linesOf (x.takingUp e) }).engine :=
    paused_update x.resumed_running rfl rfl rfl rfl rfl
  rw [takenUp_engine, takenUp_engine, h]

/-- The accounting checks are those of R47, and the end of RECONFIG does not touch what they read. -/
theorem accountingRefusal_resumed (p : PortNo) (e : Profile) (s : Part) :
    accountingRefusal p e (s.modPort p Port.resumed) = accounting s p e := by
  have h1 : (s.modPort p Port.resumed).sigmaReserve = (s.ports.toList.map fun y => y.profile.reserve).sum :=
    congrArg List.sum (Part.map_setPort s p _ Port.reserve rfl)
  have h2 : (s.modPort p Port.resumed).sharedInUse = s.sharedInUse :=
    congrArg List.sum (Part.map_setPort s p _ (fun x => x.portUse - x.reserve) rfl)
  unfold accountingRefusal accounting
  rw [h1, h2, Part.port_modPort_self]
  dsimp only [Port.resumed]
  refine if_congr Iff.rfl rfl (if_congr Iff.rfl rfl ?_)
  rw [← ite_not]
  exact if_congr (by omega) rfl rfl

/-- What forming a reply changes: the Reply Queue alone. -/
theorem formReply_eq (k : SlotNo) (code : ResultCode) (data : List Byte) (s : Part) :
    formReply k code data s = { s with
      slots := (formReply k code data s).slots, formed := (formReply k code data s).formed } := by
  rcases formReply_cases k code data s with ⟨h, _, e⟩ | ⟨_, e⟩ <;> rw [e]
  rfl

theorem formReply_reserved {k : SlotNo} {s : Part} {h : ReqHeader} (code : ResultCode) (data : List Byte)
    (hk : s.slot k = .reserved h) :
    (formReply k code data s).slot k = .formed h code data ∧ (formReply k code data s).formed = s.formed ++ [k] := by
  rcases formReply_cases k code data s with ⟨h', hk', e⟩ | ⟨hno, _⟩
  · rw [e]
    cases hk.symm.trans hk'
    exact ⟨Part.slot_setSlot_self s k _, rfl⟩
  · exact absurd hk (hno h)

theorem formReply_slot_ne {k j : SlotNo} (code : ResultCode) (data : List Byte) (s : Part) (h : j ≠ k) :
    (formReply k code data s).slot j = s.slot j := by
  rcases formReply_cases k code data s with ⟨_, _, e⟩ | ⟨_, e⟩ <;> rw [e]
  exact Part.slot_setSlot_ne s k j _ h.symm

theorem Part.slot_of_set {s t : Part} {k j : SlotNo} {x : Slot} (h : t.slots = s.slots.set k x) (hne : j ≠ k) :
    t.slot j = s.slot j := by
  unfold Part.slot
  rw [h]
  exact Part.slot_setSlot_ne s k j x hne.symm

theorem Part.slot_of_set_self {s t : Part} {k : SlotNo} {x : Slot} (h : t.slots = s.slots.set k x) : t.slot k = x := by
  unfold Part.slot
  rw [h]
  exact Part.slot_setSlot_self s k x

/-- The load of port p, its reply formed with the given result on part `t` and the transmitter loaded (R23, R46). -/
def loadAnswered (p : PortNo) (l : PendingLoad) (code : ResultCode) (data : List Byte) (t : Part) : Part :=
  (formReply l.slot code data t).modPort p Port.load

theorem finishLoad_refused {p : PortNo} {l : PendingLoad} {s : Part} {code : ResultCode} (hl : (s.port p).pendingLoad = some l)
    (hc : accounting s p l.entry = some code) :
    finishLoad p s = loadAnswered p l code [] (s.modPort p Port.resumed) := by
  rw [← accountingRefusal_resumed] at hc
  unfold finishLoad
  rw [hl]
  show Part.modPort (match accountingRefusal p l.entry (s.modPort p Port.resumed) with | some _ => _ | none => _) p Port.load = _
  rw [hc]
  rfl

theorem finishLoad_applied {p : PortNo} {l : PendingLoad} {s : Part} (hl : (s.port p).pendingLoad = some l)
    (hc : accounting s p l.entry = none) :
    finishLoad p s = loadAnswered p l (loadResult l.adjusted l.flushed) (profileLoadData l.entry l.flushed)
      (applyProfile p l.entry (s.modPort p Port.resumed)) := by
  rw [← accountingRefusal_resumed] at hc
  unfold finishLoad
  rw [hl]
  show Part.modPort (match accountingRefusal p l.entry (s.modPort p Port.resumed) with | some _ => _ | none => _) p Port.load = _
  rw [hc]
  rfl

theorem loadAnswered_port (p : PortNo) (l : PendingLoad) (code : ResultCode) (data : List Byte) (t : Part) :
    (loadAnswered p l code data t).port p = (t.port p).load := by
  unfold loadAnswered
  rw [Part.port_modPort_self, formReply_eq]
  rfl

theorem loadAnswered_port_ne {p q : PortNo} (l : PendingLoad) (code : ResultCode) (data : List Byte) (t : Part) (h : q ≠ p) :
    (loadAnswered p l code data t).port q = t.port q := by
  unfold loadAnswered
  rw [Part.port_modPort_ne _ _ _ _ h.symm, formReply_eq]
  rfl

/-- A load that is answered changes the port and the Reply Queue alone. -/
theorem loadAnswered_eq (p : PortNo) (l : PendingLoad) (code : ResultCode) (data : List Byte) (t : Part) :
    loadAnswered p l code data t = { t with
      ports := (loadAnswered p l code data t).ports, slots := (loadAnswered p l code data t).slots
      formed := (loadAnswered p l code data t).formed } := by
  unfold loadAnswered
  rw [formReply_eq]
  rfl

theorem loadAnswered_reserved {p : PortNo} {l : PendingLoad} {t : Part} {h : ReqHeader} (code : ResultCode) (data : List Byte)
    (hk : t.slot l.slot = .reserved h) : (loadAnswered p l code data t).slot l.slot = .formed h code data ∧
      (loadAnswered p l code data t).formed = t.formed ++ [l.slot] := formReply_reserved code data hk

theorem PortKept.stands {x y : Port} (h : PortKept x y) : PortStands x y :=
  ⟨h.profile, h.portState, h.epoch, h.keyOffset, h.pendingLoad, h.reconfigTimer, h.dsrDebounced, h.debounceTimer, h.pins,
    h.staging, h.signal, h.lastSnap, h.receiver, h.consoleStopped, h.head, h.holdTimer⟩

/-- A load that the accounts refuse (R47). -/
theorem finishLoad_finished_refused {p : PortNo} {l : PendingLoad} {s : Part} {code : ResultCode}
    (hl : (s.port p).pendingLoad = some l) (hc : accounting s p l.entry = some code) : LoadFinished p l s (finishLoad p s) := by
  have hport : (finishLoad p s).port p = (s.port p).resumed.load := by
    rw [finishLoad_refused hl hc, loadAnswered_port, Part.port_modPort_self]
  have hne (q : PortNo) (h : q ≠ p) : (finishLoad p s).port q = s.port q := by
    rw [finishLoad_refused hl hc, loadAnswered_port_ne _ _ _ _ h, Part.port_modPort_ne _ _ _ _ h.symm]
  have hno : ¬accounting s p l.entry = none := by simp [hc]
  have hrest : finishLoad p s = { s with
      ports := (finishLoad p s).ports, slots := (finishLoad p s).slots, formed := (finishLoad p s).formed } := by
    rw [finishLoad_refused hl hc]
    exact loadAnswered_eq _ _ _ _ _
  exact {
    pending := by rw [hport, Port.load_eq]; exact ⟨rfl, rfl⟩
    kept := by rw [hport, Port.load_eq]; exact ⟨rfl, rfl, rfl, rfl, rfl⟩
    refused := fun code' hc' => by
      cases hc.symm.trans hc'
      rw [hport]
      refine ⟨by rw [Port.load_eq]; rfl, by rw [Port.load_eq]; rfl,
        Port.load_update (Port.resumed_running _) rfl rfl rfl rfl, by rw [Port.load_eq]; rfl, fun h hk => ?_⟩
      rw [finishLoad_refused hl hc]
      exact (loadAnswered_reserved (t := s.modPort p Port.resumed) code [] hk).1
    applied := fun hn => absurd hn hno
    pause := fun hn => absurd hn hno
    lines := fun hn => absurd hn hno
    engine := fun hn => absurd hn hno
    presence := fun hm => absurd hm.1 hno
    sessions := fun _ n => by
      rw [if_neg fun hm => hno hm.1.1, hrest]
      rfl
    signal := by
      rw [if_neg fun hm => hno hm.1, hport, Port.load_eq]
      rfl
    signalled := fun _ _ hm => absurd hm.1 hno
    reply := fun h hk => by
      rw [if_neg fun hm => hno hm.1, List.append_nil, finishLoad_refused hl hc]
      exact (loadAnswered_reserved (t := s.modPort p Port.resumed) code [] hk).2
    memory := by rw [hrest]
    others := fun q hq => by
      rw [hne q hq]
      exact (PortKept.refl _).stands
    queues := by rw [hrest] }

/-- A port has one owner, and `ownerOf` finds it (R120). -/
theorem ownerOf_iff {s : Part} {p : PortNo} (h : ∀ n m, s.owns n p = true → s.owns m p = true → n = m) (n : SessionNo) :
    s.ownerOf p = some n ↔ s.owns n p = true := by
  refine ⟨ownerOf_owns, fun hn => ?_⟩
  cases ho : s.ownerOf p with
  | none =>
    have := List.find?_eq_none.1 ho n (List.mem_finRange n)
    exact absurd hn this
  | some m => rw [h m n (ownerOf_owns ho) hn]

/-- A load that is applied (R50 to R52, R57). The signal that ends early with it has a reply slot of its own. -/
theorem finishLoad_finished_applied {p : PortNo} {l : PendingLoad} {s : Part} (hl : (s.port p).pendingLoad = some l)
    (hc : accounting s p l.entry = none) (hw : s.waitList = [])
    (hs : metByPresence p l s → ∀ g, (s.port p).signal = some g → g.slot ≠ l.slot ∧ ∃ h, s.slot g.slot = .reserved h) :
    LoadFinished p l s (finishLoad p s) := by
  have hx : (s.modPort p Port.resumed).port p = (s.port p).resumed := Part.port_modPort_self s p _
  have hmet : metByPresence p l s ↔ meetsPresence p l.entry (s.modPort p Port.resumed) := by
    unfold metByPresence meetsPresence
    rw [hx, ne_eq, ne_eq, Port.resumed_localHold]
    exact and_iff_right hc
  have ha := applyProfile_applied p l.entry (metByPresence p l s) hmet hw (by rw [hx]; exact Port.resumed_not_reconfig _)
  have ht := finishLoad_applied hl hc
  generalize applyProfile p l.entry (s.modPort p Port.resumed) = t at ha ht
  have hport : (finishLoad p s).port p = (t.port p).load := by rw [ht, loadAnswered_port]
  have hne (q : PortNo) (h : q ≠ p) : (finishLoad p s).port q = t.port q := by rw [ht, loadAnswered_port_ne _ _ _ _ h]
  have hrest : finishLoad p s = { t with
      ports := (finishLoad p s).ports, slots := (finishLoad p s).slots, formed := (finishLoad p s).formed } := by
    rw [ht]
    exact loadAnswered_eq _ _ _ _ _
  have hy := ha.port
  rw [hx, Port.closed_eq] at hy
  have hrun : (s.port p).portState ≠ .disabled → ((s.modPort p Port.resumed).port p).portState ≠ .disabled := by
    rw [hx]
    exact mt (Port.resumed_disabled _).1
  have hslot (h : ReqHeader) (hk : s.slot l.slot = .reserved h) : t.slot l.slot = .reserved h := by
    have stands (e : t.slots = s.slots) : t.slot l.slot = .reserved h := by rw [Part.slot, e]; exact hk
    by_cases hm : metByPresence p l s
    · cases hg : (s.port p).signal with
      | none => exact stands (ha.noSignal (.inr (by rw [hx]; exact hg))).1
      | some g =>
        obtain ⟨hgl, r, hr⟩ := hs hm g hg
        exact (Part.slot_of_set (ha.aborted g r hm (by rw [hx]; exact hg) hr).1 hgl.symm).trans hk
    · exact stands (ha.noSignal (.inl hm)).1
  exact {
    pending := by
      rw [hport, Port.load_eq, hy]
      exact ⟨rfl, rfl⟩
    kept := by
      rw [hport, Port.load_eq, hy]
      exact ⟨rfl, rfl, rfl, rfl, rfl⟩
    refused := fun code hr => by simp [hc] at hr
    applied := fun _ => by
      have hcells : (finishLoad p s).chainCells p = t.chainCells p :=
        Part.chainCells_congr (by rw [hport, Port.load_chain]) fun k => by rw [hrest]; rfl
      refine ⟨?_, ?_, ?_, ?_, ?_, hcells ▸ ha.within, ?_, ?_, ?_, ?_, ?_, ?_⟩
      · rw [hport, Port.load_eq, hy]; rfl
      · rw [hport, Port.load_eq, hy]; rfl
      · rw [hport, Port.load_eq, hy]; rfl
      · rw [hport, Port.load_eq, hy]; rfl
      · rw [hport, Port.load_eq, hy]; rfl
      · rw [hport, Port.load_eq, hy]; rfl
      · rw [hport, Port.load_eq, hy]; rfl
      · rw [hport, Port.load_eq, hy]; exact (takeProfile_head _ l.entry).1
      · rw [hport, Port.load_eq, hy]; exact (takeProfile_head _ l.entry).2
      · rw [hport, Port.load_eq, hy]
        by_cases hm : metByPresence p l s
        · exact (if_pos hm).trans (if_pos ⟨hm.2.1, hm.2.2.1⟩).symm
        · refine (if_neg hm).trans ?_
          split_ifs with hd hr
          · have : (s.port p).portState = .localHold := by
              by_contra h
              exact hm ⟨hc, hd.1, hd.2, h⟩
            exact (Port.resumed_localHold _).2 this
          · exact if_pos hr
          · exact if_neg hr
      · intro h hk
        rw [ht, (loadAnswered_reserved _ _ (hslot h hk)).1]
        cases l.flushed <;> rfl
    pause := fun _ hd ho => by
      have hp := ha.pause (hrun hd) ho
      rw [hx] at hp
      have hprofile : (t.port p).profile = l.entry := by rw [hy]; rfl
      rw [hport, Port.load_pause, Port.load_portUse, Port.load_conditions]
      refine ⟨?_, fun h1 h2 => ha.pauseSet (hrun hd) (by rw [hx]; exact h1) (by rw [hx]; exact h2)⟩
      have := hp.pause
      rwa [hprofile] at this
    lines := fun _ hd => by
      have hf := (ha.lines (hrun hd)).load
      rw [hx] at hf
      rw [hport]
      exact hf
    engine := fun _ hd hh => by
      have hcells : (s.modPort p Port.resumed).chainCells p = s.chainCells p :=
        Part.chainCells_congr (by rw [hx]; rfl) fun _ => rfl
      have he := ha.engine (hcells ▸ hh)
      rw [hx, takenUp_resumed] at he
      obtain ⟨z1, z2, z3, z4⟩ := takenUp_stands (s.port p) l.entry
      have hr : (t.port p).running = (takenUp (s.port p) l.entry).running := by
        rw [(Port.running_iff (takenUp _ _)).2 (z2 ▸ hd), Port.running_iff, hy]
        show (if metByPresence p l s then PortState.localHold else (s.port p).resumed.portState) ≠ .disabled
        split_ifs
        · simp
        · exact mt (Port.resumed_disabled _).1 hd
      rw [hport]
      intro z
      by_cases hm : metByPresence p l s
      · rw [if_pos hm] at he ⊢
        refine Port.load_update hr ?_ ?_ ?_ he
        · rw [hy]; exact if_pos hm
        · rw [hy]; exact z1.symm
        · rw [hy]; exact z4.symm
      · rw [if_neg hm] at he ⊢
        refine Port.load_update hr ?_ ?_ ?_ he
        · rw [hy]; exact (if_neg hm).trans z3.symm
        · rw [hy]; exact z1.symm
        · rw [hy]; exact z4.symm
    presence := fun hm => by
      rw [hport, Port.load_conditions]
      exact ha.present hm
    sessions := fun hu n => by
      have ho : (s.modPort p Port.resumed).ownerOf p = some n ↔ s.owns n p = true := ownerOf_iff hu n
      have := ha.session n
      rw [hrest]
      simp only [ho] at this
      exact this
    signal := by
      rw [hport, Port.load_eq, hy]
      rfl
    signalled := fun g h hm hg hk => by
      have hab := ha.aborted g h hm (by rw [hx]; exact hg) hk
      rw [ht]
      exact (formReply_slot_ne _ _ t (hs hm g hg).1).trans (Part.slot_of_set_self hab.1)
    reply := fun h hk => by
      have hformed : t.formed = s.formed ++
          (if metByPresence p l s then ((s.port p).signal.map Signal.slot).toList else []) := by
        split_ifs with hm
        · cases hg : (s.port p).signal with
          | none =>
            rw [(ha.noSignal (.inr (by rw [hx]; exact hg))).2]
            exact (List.append_nil _).symm
          | some g =>
            obtain ⟨-, r, hr⟩ := hs hm g hg
            exact (ha.aborted g r hm (by rw [hx]; exact hg) hr).2
        · rw [(ha.noSignal (.inl hm)).2]
          exact (List.append_nil _).symm
      rw [ht, (loadAnswered_reserved _ _ (hslot h hk)).2, hformed]
    memory := by
      rw [hrest]
      exact ha.memory
    others := fun q hq => by
      rw [hne q hq]
      exact (Part.port_modPort_ne s p q Port.resumed hq.symm ▸ ha.others q hq).stands
    queues := by
      rw [hrest]
      exact ha.queues }

/-- A load that has come to its moment, whatever the accounts say (R47, R50 to R52, R57). -/
theorem finishLoad_finished {p : PortNo} {l : PendingLoad} {s : Part} (hl : (s.port p).pendingLoad = some l)
    (hw : s.waitList = [])
    (hs : metByPresence p l s → ∀ g, (s.port p).signal = some g → g.slot ≠ l.slot ∧ ∃ h, s.slot g.slot = .reserved h) :
    LoadFinished p l s (finishLoad p s) := by
  cases hc : accounting s p l.entry with
  | none => exact finishLoad_finished_applied hl hc hw hs
  | some code => exact finishLoad_finished_refused hl hc

end Sys2Proof.Machine
end

section
namespace Sys2Proof.Machine
open Sys2Proof.Claims

/-! ### A character completes on TXD (R23, R26, R29, R50, R51, R57, R172) -/

theorem completeTx_empty {p : PortNo} {s : Part} (h : (s.port p).engine.shift = .empty) : completeTx p s = s := if_pos h

theorem completeTx_sent {p : PortNo} {s : Part} (h : (s.port p).engine.shift ≠ .empty) : completeTx p s =
    let t := (foldKey (s.port p).profile.dataBits (s.port p).engine.shift s).setPort p (s.port p).shiftDone
    reconfigIdle p ((finishFlushed p t).modPort p Port.load) := by
  have hp : (foldKey (s.port p).profile.dataBits (s.port p).engine.shift s).port p = s.port p := by
    unfold foldKey
    repeat' split
    all_goals rfl
  unfold completeTx
  simp only [if_neg h, Part.modPort_eq, hp]

theorem finishFlushed_of_not {p : PortNo} {s : Part} (h : ∀ l, (s.port p).pendingLoad = some l → l.flushed = none) :
    finishFlushed p s = s := by
  refine if_neg fun hc => ?_
  cases hl : (s.port p).pendingLoad with
  | none => simp [hl] at hc
  | some l => simp [hl, h l hl] at hc

/-- A load that waits for an idle transmitter waits on while the port has more to send or a signal in progress (R49, R50). -/
theorem reconfigIdle_waits {p : PortNo} {s : Part}
    (h : (s.port p).pendingLoad = none ∨ (s.port p).idle = false) : reconfigIdle p s = s := by
  refine if_neg fun hc => ?_
  rcases h with h | h
  · simp [h] at hc
  · simp [h] at hc

/-- What has more to send or a signal in progress is not idle once it has loaded what it may (R23, R49). -/
theorem Port.load_not_idle {x : Port} (h : x.engine.fifo ≠ [] ∨ x.engine.pendingFlow ≠ none ∨ x.signal ≠ none) :
    x.load.idle = false := by
  rw [← Bool.not_eq_true]
  intro hi
  simp only [Port.idle, Bool.and_eq_true, List.isEmpty_iff, beq_iff_eq] at hi
  obtain ⟨⟨⟨hf, hs⟩, hp⟩, hg⟩ := hi
  rcases x.load_cases with e | ⟨ch, e⟩ | ⟨v, tag, rest, e⟩
  · rw [e] at hf hp hg
    rcases h with h | h | h
    · exact h hf
    · exact h hp
    · exact h hg
  · rw [e] at hs; cases hs
  · rw [e] at hs; cases hs

/-- The fold of a key byte that leaves, as the statement of R26 and R29 has it, and what it leaves alone. -/
theorem foldKey_eq (dataBits : Nat) (shift : ShiftReg) (s : Part) :
    foldKey dataBits shift s = { s with sessions := (foldKey dataBits shift s).sessions } := by
  unfold foldKey
  repeat' split
  all_goals rfl

theorem finishFlushed_flushed {p : PortNo} {s : Part} {l : PendingLoad} (hs : (s.port p).engine.shift = .empty)
    (hl : (s.port p).pendingLoad = some l) (hf : l.flushed ≠ none) : finishFlushed p s = finishLoad p s :=
  if_pos ⟨hs, by simpa [hl, Option.isSome_iff_ne_none] using hf⟩

theorem reconfigIdle_idle {p : PortNo} {s : Part} {l : PendingLoad} (hr : (s.port p).portState = .reconfig)
    (hi : (s.port p).idle = true) (hl : (s.port p).pendingLoad = some l) (hf : l.flushed = none) :
    reconfigIdle p s = finishLoad p s :=
  if_pos ⟨hr, hi, by simp [hl, hf]⟩

/-- A finished load has loaded the transmitter, and no load is left to come to its moment. -/
theorem finishLoad_then {p : PortNo} {s : Part} {l : PendingLoad} (hl : (s.port p).pendingLoad = some l)
    (hfin : LoadFinished p l s (finishLoad p s)) :
    reconfigIdle p ((finishLoad p s).modPort p Port.load) = finishLoad p s := by
  have hload : (finishLoad p s).modPort p Port.load = finishLoad p s := by
    unfold finishLoad
    rw [hl]
    simp only [Part.modPort_modPort, Port.load_load]
  rw [hload]
  exact reconfigIdle_waits (.inl hfin.pending.1)

theorem shiftDone_slot {x : Port} {g : Signal} (h : x.shiftDone.signal = some g) : x.signal.map Signal.slot = some g.slot := by
  have hm : x.signal.map (fun g => if g.phase = .waiting then { g with phase := .space } else g) = some g := h
  obtain ⟨g', hg', rfl⟩ := Option.map_eq_some_iff.1 hm
  rw [hg']
  split_ifs <;> rfl

/-- A character that completes brings a load to its moment that waited for it or for an idle transmitter (R50, R51, R57). -/
theorem completeTx_finishes {p : PortNo} {s t : Part} {l : PendingLoad} (hs : (s.port p).engine.shift ≠ .empty)
    (ht : t = (foldKey (s.port p).profile.dataBits (s.port p).engine.shift s).setPort p (s.port p).shiftDone)
    (hl : (s.port p).pendingLoad = some l) (hfin : LoadFinished p l t (finishLoad p t))
    (hmoment : l.flushed ≠ none ∨ ((s.port p).signal = none ∧ (s.port p).portState = .reconfig ∧ (s.port p).engine.fifo = [] ∧
      (s.port p).engine.pendingFlow = none)) : completeTx p s = finishLoad p t := by
  have hx : t.port p = (s.port p).shiftDone := by rw [ht, Part.port_setPort_self]
  have hl' : (t.port p).pendingLoad = some l := by rw [hx]; exact hl
  refine (completeTx_sent hs).trans ?_
  rw [← ht]
  show reconfigIdle p ((finishFlushed p t).modPort p Port.load) = finishLoad p t
  by_cases hf : l.flushed = none
  · obtain ⟨hg, hr, hq, hp⟩ := hmoment.resolve_left (not_not.2 hf)
    have hload : t.modPort p Port.load = t := by
      rw [Part.modPort_eq, hx, Port.load_empty, ← hx, Part.setPort_port_self]
      · rintro ⟨ch, ho, _⟩
        exact absurd (hp.symm.trans ho) (by simp)
      · exact hq
    have hidle : (t.port p).idle = true := by
      rw [hx]
      simp [Port.idle, Port.shiftDone, hq, hp, hg]
    rw [finishFlushed_of_not fun l' h => by rw [hl'] at h; cases h; exact hf, hload]
    exact reconfigIdle_idle (by rw [hx]; exact hr) hidle hl' hf
  · rw [finishFlushed_flushed (by rw [hx]; rfl) hl' hf]
    exact finishLoad_then hl' hfin

/-- Settles O47: the equations of a load, the branches of `completeTx`, and `finishLoad_finished` for a load that comes to its
moment. -/
theorem charactersLoadLeaveAndFold : Obligations.CharactersLoadLeaveAndFold := by
  unfold Obligations.CharactersLoadLeaveAndFold
  refine ⟨fun x => ⟨fun h => ?_, fun hr hs hb => ⟨fun ch hp hf => ?_, fun hf v tag rest hq => ⟨fun h => ?_, fun h => ?_⟩,
    fun hf hq => ?_⟩⟩, fun s p => ?_⟩
  · refine Port.load_of_not fun ⟨h1, h2, h3⟩ => ?_
    rcases h with h | h | h
    · exact h1 h
    · exact h h2
    · simp [h3] at h
  · exact Port.load_flow ⟨hr, hs, hb⟩ ⟨hp, hf⟩
  · exact Port.load_stopped hf (x.fifoStopped_iff.2 h)
  · exact Port.load_key ⟨hr, hs, hb⟩ hf (by simpa using mt x.fifoStopped_iff.1 h) hq
  · exact Port.load_empty hf hq
  intro x sent fold
  have hfoldEq : fold = { s.part with sessions := fold.sessions } := foldKey_eq x.profile.dataBits x.engine.shift s.part
  have hx : (fold.setPort p sent).port p = sent := Part.port_setPort_self _ _ _
  have hcomplete (h : x.engine.shift ≠ .empty) : completeTx p s.part =
      reconfigIdle p ((finishFlushed p (fold.setPort p sent)).modPort p Port.load) := completeTx_sent h
  have hstands (h : x.engine.shift ≠ .empty) (hl : ∀ l, x.pendingLoad = some l → l.flushed = none)
      (hi : x.pendingLoad = none ∨ sent.load.idle = false) : completeTx p s.part = fold.setPort p sent.load := by
    have e : (fold.setPort p sent).modPort p Port.load = fold.setPort p sent.load := by
      rw [Part.modPort_eq, hx, Part.setPort_setPort]
    rw [hcomplete h, finishFlushed_of_not (by rw [hx]; exact hl), e, reconfigIdle_waits]
    rw [Part.port_setPort_self]
    exact hi.imp_left fun h => by rw [Port.load_eq]; exact h
  refine ⟨fun h => ?_, fun h hl => ?_, fun l h hl hf hmore => ?_, fun l h hl hw hmoment => ?_⟩
  · show donePart (completeTx p) s = _
    rw [donePart, completeTx_empty h, done]
  · show donePart (completeTx p) s = _
    rw [donePart, hstands h (fun l' h' => by rw [hl] at h'; cases h') (.inl hl), done]
  · show donePart (completeTx p) s = _
    rw [donePart, hstands h (fun l' h' => by rw [hl] at h'; cases h'; exact hf) (.inr (Port.load_not_idle ?_)), done]
    exact hmore.imp_right (Or.imp_right fun hg hn => hg (Option.map_eq_none_iff.1 hn))
  · have hfin : LoadFinished p l (fold.setPort p sent) (finishLoad p (fold.setPort p sent)) := by
      refine finishLoad_finished (by rw [hx]; exact hl) (by rw [Part.setPort_waitList, hfoldEq]; exact hw) fun hm g hg => ?_
      rw [hx] at hg
      have hslot := shiftDone_slot hg
      have hsignal : x.signal ≠ none := fun hn => by rw [hn] at hslot; cases hslot
      have hheld : s.slotsHeld := by
        rcases hmoment with ⟨hn, _⟩ | ⟨_, hn | hd | hd | hh⟩
        · exact absurd hn hsignal
        · exact absurd hn hsignal
        · exact absurd hm.2.1 hd
        · have hm' : ((fold.setPort p sent).port p).dsrDebounced = true := hm.2.2.1
          rw [hx] at hm'
          exact absurd (hd.symm.trans hm') (by simp)
        · exact hh
      have hload : s.part.slotOf (.load p) = some l.slot := by
        show x.pendingLoad.map PendingLoad.slot = _
        rw [hl]
        rfl
      refine ⟨fun he => ?_, ?_⟩
      · have := hheld.once (.signal p) (.load p) l.slot (he ▸ hslot) hload
        cases this
      · rw [Part.setPort_slot, hfoldEq]
        exact hheld.reserved (.signal p) g.slot hslot
    refine ⟨{ s with part := finishLoad p (fold.setPort p sent) }, ?_, hfin, rfl, rfl⟩
    show donePart (completeTx p) s = _
    rw [donePart, completeTx_finishes h rfl hl hfin (hmoment.symm.imp And.left id), done]
    rfl

end Sys2Proof.Machine
end

section
namespace Sys2Proof.Machine
open Sys2Proof.Claims

/-! ### Placing a byte on a port with no triggers (R83, R85, R93) -/

theorem advanceTriggers_of_none {p : PortNo} {s : Part} (byte : Byte) (offset : Word32)
    (h : (s.port p).profile.triggerSet = 0) : advanceTriggers p byte offset s = (s, false) := by
  have stands (t : TriggerNo) : advanceTrigger p byte offset (s, false) t = (s, false) := by
    simp [advanceTrigger, h]
  unfold advanceTriggers
  induction allTriggers with
  | nil => rfl
  | cons t rest ih => rw [List.foldl_cons, stands, ih]

/-- The port whose held byte is stored: it takes the stream offset and leaves the slot (R83). -/
def Port.stored (x : Port) : Port := { x with streamOffset := x.streamOffset + 1, engine := { x.engine with slot := none } }

theorem storeByte_port (p : PortNo) (b : Block) (v : Byte) (s : Part) : (storeByte p b v s).port p = (s.port p).stored :=
  Part.port_modPort_self _ p _

theorem storeByte_block (p : PortNo) (b : Block) (v : Byte) (s : Part) (k : Nat) : (storeByte p b v s).block k =
    if k = b.id then (s.block k).map fun b => { b with length := b.length + 1 } else s.block k :=
  Part.block_modBlock { s with mem := Memory.write s.mem (Memory.addressOf b.cells b.length) v } b.id
    (f := fun b => { b with length := b.length + 1 }) (fun _ => rfl) k

/-- The open block of port p is `b`, and the holding slot has a byte for it. -/
structure Placeable (p : PortNo) (b : Block) (byte : Byte) (s : Part) : Prop where
  opened : (s.port p).openBlock = some b.id
  block : s.block b.id = some b
  held : (s.port p).engine.slot = some byte
  plain : (s.port p).profile.triggerSet = 0

theorem Placeable.placeByte {p : PortNo} {b : Block} {byte : Byte} {s : Part} (h : Placeable p b byte s) :
    (closeAfterByte false (b.length + 1) (s.port p).profile.blockLimit = none →
      placeByte p s = (storeByte p b byte s).modPort p fun x => if x.gapTimer = none then x.startGap else x) ∧
    ∀ reason, closeAfterByte false (b.length + 1) (s.port p).profile.blockLimit = some reason →
      placeByte p s = closeBlock p reason (storeByte p b byte s) := by
  have hb : (s.port p).openBlock.bind s.block = some b := by rw [h.opened]; exact h.block
  have hport : (storeByte p b byte s).port p = (s.port p).stored := storeByte_port p b byte s
  have ht : advanceTriggers p byte (s.port p).streamOffset (storeByte p b byte s) = (storeByte p b byte s, false) :=
    advanceTriggers_of_none _ _ (by rw [hport]; exact h.plain)
  constructor
  · intro hc
    unfold Machine.placeByte
    rw [hb, h.held]
    simp only [ht, hport, Port.stored, hc]
  · intro reason hc
    unfold Machine.placeByte
    rw [hb, h.held]
    simp only [ht, hport, Port.stored, hc]

/-- A byte that does not fill its block is stored, and that is all, while the idle gap runs (R83, R87). -/
theorem Placeable.stays {p : PortNo} {b : Block} {byte : Byte} {s : Part} (h : Placeable p b byte s)
    (h1 : b.length + 1 ≠ 512) (h2 : b.length + 1 ≠ (s.port p).profile.blockLimit) (hg : (s.port p).gapTimer ≠ none) :
    Machine.placeByte p s = storeByte p b byte s := by
  have hc : closeAfterByte false (b.length + 1) (s.port p).profile.blockLimit = none := by simp [closeAfterByte, h1, h2]
  have hg' : ¬((s.port p).stored).gapTimer = none := hg
  rw [h.placeByte.1 hc]
  simp only [Part.modPort_eq, storeByte_port, if_neg hg']
  rw [← storeByte_port p b byte s, Part.setPort_port_self]

/-- A byte that fills its block closes it (R85). -/
theorem Placeable.closes {p : PortNo} {b : Block} {byte : Byte} {s : Part} (h : Placeable p b byte s)
    (hc : b.length + 1 = 512 ∨ b.length + 1 = (s.port p).profile.blockLimit) :
    Machine.placeByte p s = closeBlock p (if b.length + 1 = 512 then .full else .limit) (storeByte p b byte s) := by
  refine h.placeByte.2 _ ?_
  unfold closeAfterByte
  rw [if_neg Bool.false_ne_true]
  by_cases h1 : b.length + 1 = 512
  · rw [if_pos h1, if_pos h1]
  · rw [if_neg h1, if_neg h1, if_pos (hc.resolve_left h1)]

/-- What a byte placed in the open block leaves (R83, R85). -/
structure BytePlaced (p : PortNo) (b : Block) (byte : Byte) (s t : Part) : Prop where
  mem : t.mem = Memory.write s.mem (Memory.addressOf b.cells b.length) byte
  block : t.block b.id = some { b with
    length := b.length + 1
    closeReason := if b.length + 1 = 512 then some .full
                   else if b.length + 1 = (s.port p).profile.blockLimit then some .limit else b.closeReason }
  port : t.port p = if b.length + 1 = 512 ∨ b.length + 1 = (s.port p).profile.blockLimit
    then (s.port p).stored.closed else (s.port p).stored

theorem Placeable.placed {p : PortNo} {b : Block} {byte : Byte} {s : Part} (h : Placeable p b byte s)
    (hg : (s.port p).gapTimer ≠ none) : BytePlaced p b byte s (Machine.placeByte p s) := by
  have hblock : (storeByte p b byte s).block b.id = some { b with length := b.length + 1 } := by
    rw [storeByte_block, if_pos rfl, h.block]
    rfl
  have hopen : ((storeByte p b byte s).port p).openBlock = some b.id := by
    rw [storeByte_port]
    exact h.opened
  by_cases hc : b.length + 1 = 512 ∨ b.length + 1 = (s.port p).profile.blockLimit
  · rw [h.closes hc]
    refine ⟨by rw [closeBlock_eq]; rfl, ?_, by rw [if_pos hc, closeBlock_port, storeByte_port]⟩
    rw [closeBlock_block, if_pos hopen, hblock]
    by_cases h1 : b.length + 1 = 512
    · rw [if_pos h1, if_pos h1]
      rfl
    · rw [if_neg h1, if_neg h1, if_pos (hc.resolve_left h1)]
      rfl
  · obtain ⟨h1, h2⟩ := not_or.1 hc
    rw [h.stays h1 h2 hg]
    exact ⟨rfl, by rw [hblock, if_neg h1, if_neg h2], by rw [if_neg hc, storeByte_port]⟩

end Sys2Proof.Machine
end

section
namespace Sys2Proof.Machine
open Sys2Proof.Claims

/-! ### What the receiver reads of a character (R30, R31) -/

/-- The parity check fails when the number of ones is odd under EVEN, or even under ODD (R30). -/
theorem parityGood_fails (e : Parity) (data : Byte) (bit : Bool) : parityGood e data bit = false ↔
    (e = .even ∧ (onesOf data + bit.toNat) % 2 = 1) ∨ (e = .odd ∧ (onesOf data + bit.toNat) % 2 = 0) := by
  cases e <;> simp [parityGood]

/-- The errors of a character as conditions (R32). -/
def RxChar.errors (c : RxChar) : BitVec 10 :=
  (if c.framing then Condition.framing.bit else 0) ||| (if c.parity then Condition.parity.bit else 0)

theorem readChar_isBreak (e : Profile) (r : RxSample) : (readChar e r).isBreak = true ↔
    r.stopMark = false ∧ lineByte e.dataBits r.data = 0 ∧ (e.parity = .noParity ∨ r.parityBit = false) ∧ r.stillSpace = true := by
  simp [readChar, and_assoc]

theorem readChar_framing (e : Profile) (r : RxSample) : (readChar e r).framing = true ↔ r.stopMark = false := by
  simp [readChar]

theorem readChar_parity (e : Profile) (r : RxSample) : (readChar e r).parity = true ↔
    (e.parity = .even ∧ (onesOf (lineByte e.dataBits r.data) + r.parityBit.toNat) % 2 = 1) ∨
    (e.parity = .odd ∧ (onesOf (lineByte e.dataBits r.data) + r.parityBit.toNat) % 2 = 0) := by
  rw [← parityGood_fails]
  simp [readChar]

/-! ### A character that is no break (R30, R32 to R34, R87) -/

/-- The port that has heard a character that is no break: RXD as the sample left it, the receiver hunting or waiting for mark, and
the idle-gap timer started again (R30, R87). -/
def Port.heard (x : Port) (r : RxSample) : Port :=
  { x with
    pins := { x.pins with rxd := r.stopMark || !r.stillSpace }
    engine := { x.engine with receiver := if r.stopMark = false then .waitMark else .hunting }
    gapTimer := some x.gapLength }

theorem completeRx_deaf {p : PortNo} {s : Part} (r : RxSample) (h : ¬(s.port p).canReceive) : completeRx p r s = s := if_neg h

theorem completeRx_break {p : PortNo} {s : Part} {r : RxSample} (h : (s.port p).canReceive)
    (hb : (readChar (s.port p).profile r).isBreak = true) : completeRx p r s =
    receiveBreak p (s.setPort p { s.port p with pins := { (s.port p).pins with rxd := r.stopMark || !r.stillSpace } }) := by
  rw [completeRx, if_pos h, receiveChar, if_pos hb]
  rfl

/-- Of a character that is no break, the branches of its classification. -/
theorem completeRx_heard {p : PortNo} {s : Part} {r : RxSample} (h : (s.port p).canReceive)
    (hb : ¬(readChar (s.port p).profile r).isBreak = true) : completeRx p r s =
    let c := readChar (s.port p).profile r
    let t := s.setPort p ((s.port p).heard r)
    if c.framing || c.parity then receiveError p c t
    else if (s.port p).profile.flow = .soft ∧ (c.byte = xonByte ∨ c.byte = xoffByte) then receiveFlow p c.byte t
    else receiveGood p c.byte t := by
  have hf : (readChar (s.port p).profile r).framing = true ↔ r.stopMark = false := readChar_framing _ _
  rw [completeRx, if_pos h, receiveChar, if_neg hb]
  simp only [Part.modPort_eq, Part.port_setPort_self, Part.setPort_setPort, hf]
  rfl

end Sys2Proof.Machine
end

section
namespace Sys2Proof.Machine
open Sys2Proof.Claims

/-! ### A byte that asks for a cell (R67, R68, R70, R83, R84) -/

theorem offerHeldByte_room {p : PortNo} {s : Part} {id : Nat} {b : Block} (ho : (s.port p).openBlock = some id)
    (hb : s.block id = some b) (hl : b.length % 64 ≠ 0) : offerHeldByte p s = placeByte p s := by
  have h : (s.port p).openBlock.bind s.block = some b := by rw [ho]; exact hb
  unfold offerHeldByte
  rw [h]
  exact if_neg hl

theorem offerHeldByte_asks {p : PortNo} {s : Part}
    (h : ∀ id b, (s.port p).openBlock = some id → s.block id = some b → b.length % 64 = 0) :
    offerHeldByte p s = settleWalks (requestCell p s) := by
  unfold offerHeldByte
  cases hb : (s.port p).openBlock.bind s.block with
  | none => rfl
  | some b =>
    obtain ⟨id, ho, hb⟩ := Option.bind_eq_some_iff.1 hb
    exact if_pos (h id b ho hb)

theorem Part.sharedPool_eq (s : Part) : s.sharedPool = 4032 - (s.ports.toList.map fun y => y.profile.reserve).sum := rfl

/-- A cell is admitted from the reserve, or within the share from the shared pool, while one is free (R66, R68). -/
theorem Part.cellAdmissible_iff (s : Part) (p : PortNo) : s.cellAdmissible p = true ↔ s.freeList ≠ [] ∧
    ((s.port p).portUse < (s.port p).profile.reserve ∨
      ((s.port p).portUse - (s.port p).profile.reserve < (s.port p).profile.shareLimit ∧
        (s.ports.toList.map fun y => y.portUse - y.profile.reserve).sum <
          4032 - (s.ports.toList.map fun y => y.profile.reserve).sum)) := by
  rw [← Part.sharedPool_eq]
  simp only [Part.cellAdmissible, Bool.and_eq_true, Bool.or_eq_true, decide_eq_true_eq, Bool.not_eq_true',
    List.isEmpty_eq_false_iff, ne_eq]
  rfl

/-- What the accounts read of a port is its account and its entry. -/
theorem Part.cellAdmissible_setPort {s : Part} {p : PortNo} {x : Port} (hu : x.portUse = (s.port p).portUse)
    (hp : x.profile = (s.port p).profile) : (s.setPort p x).cellAdmissible p = s.cellAdmissible p := by
  have hfree : (s.setPort p x).freeList = s.freeList := rfl
  rw [Bool.eq_iff_iff, Part.cellAdmissible_iff, Part.cellAdmissible_iff, Part.port_setPort_self,
    Part.map_setPort s p x _ (by rw [hu, hp]), Part.map_setPort s p x _ (by rw [hp]), hu, hp, hfree]

theorem requestCell_admits {p : PortNo} {s : Part} (h : s.cellAdmissible p = true) :
    SameButNotices (admitCell p { s with notices := [], noticesLost := false }) (requestCell p s) := by
  have hd : decideCell p { s with notices := [], noticesLost := false } =
      ({ s with notices := [], noticesLost := false }, true) :=
    if_pos h
  have hsame := inTableOrder_same p
    (fun s => if (decideCell p s).2 then admitCell p (decideCell p s).1 else startWait p (decideCell p s).1) s
  simp only [hd, if_true] at hsame
  exact hsame

/-- A request that is refused, with no history to yield, waits (R69, R70). -/
theorem requestCell_waits {p : PortNo} {s : Part} (h : ¬s.cellAdmissible p = true) (hc : (s.port p).chain = []) :
    SameButNotices (startWait p { s with notices := [], noticesLost := false }) (requestCell p s) := by
  have hd : decideCell p { s with notices := [], noticesLost := false } =
      ({ s with notices := [], noticesLost := false }, false) := by
    refine (if_neg h).trans ?_
    rw [show (Part.port { s with notices := [], noticesLost := false } p).chain = [] from hc]
    rfl
  have := inTableOrder_same p
    (fun s => if (decideCell p s).2 then admitCell p (decideCell p s).1 else startWait p (decideCell p s).1) s
  rw [hd] at this
  exact this

/-- Storing a byte touches nothing that a load reads or moves. -/
theorem Port.load_stored (x : Port) : x.stored.load = x.load.stored := by
  by_cases h : x.mayLoad
  · by_cases hf : ∃ ch, x.owesFlow ch
    · obtain ⟨ch, hf⟩ := hf
      rw [Port.load_flow (x := x.stored) h hf, Port.load_flow h hf]
      rfl
    · match hq : x.engine.fifo, hs : x.fifoStopped with
      | [], _ => rw [Port.load_empty (x := x.stored) hf hq, Port.load_empty hf hq]
      | _, true => rw [Port.load_stopped (x := x.stored) hf hs, Port.load_stopped hf hs]
      | (v, tag) :: rest, false =>
        rw [Port.load_key (x := x.stored) h hf hs hq, Port.load_key h hf hs hq]
        rfl
  · rw [Port.load_of_not (x := x.stored) h, Port.load_of_not h]

/-- Storing a byte touches nothing that the pause reads or moves. -/
theorem paused_stored (x : Port) : paused x.stored = (paused x).stored := by
  rcases paused_cases x with ⟨h, e⟩ | ⟨hrun, hpause, huse, e⟩ | ⟨hrun, hpause, huse, e⟩ <;> rw [e]
  · exact paused_stands (x := x.stored) h
  · rw [← Port.load_stored]
    exact paused_asserts (x := x.stored) hrun hpause huse
  · rw [← Port.load_stored]
    exact paused_releases (x := x.stored) hrun hpause huse

/-- A byte stored after its port was set is stored, and the port is the one set, with the byte out of its slot. -/
theorem storeByte_setPort (p : PortNo) (b : Block) (v : Byte) (s : Part) (x : Port) :
    storeByte p b v (s.setPort p x) = (storeByte p b v s).setPort p x.stored := by
  have hx : (s.setPort p x).port p = x := Part.port_setPort_self s p x
  unfold storeByte
  simp only [Part.modPort_eq, Part.setPort_setPort]
  conv_rhs => rw [← hx]
  simp only [Part.setPort, Part.modBlock, Vector.set_set, Part.port, Port.stored]

/-- The account of port p takes a cell from the free list (R67). -/
def cellTaken (p : PortNo) (s : Part) : Part := (takeCell p s).modPort p fun x => { x with portUse := x.portUse + 1 }

/-- An admitted byte that does not fill its block is stored in it, its pause evaluated first (R67, R83). -/
theorem admitCell_placed {p : PortNo} {b : Block} {byte : Byte} {s : Part} (h : Placeable p b byte (cellTaken p s))
    (h1 : b.length + 1 ≠ 512) (h2 : b.length + 1 ≠ ((cellTaken p s).port p).profile.blockLimit)
    (hg : ((cellTaken p s).port p).gapTimer ≠ none) :
    SameButNotices ((storeByte p b byte (cellTaken p s)).setPort p (paused ((cellTaken p s).port p).stored)) (admitCell p s) := by
  have he := evalPause_same p (cellTaken p s)
  have hs : admitCell p s = placeByte p (evalPause p (cellTaken p s)) := rfl
  have hp : (evalPause p (cellTaken p s)).port p = paused ((cellTaken p s).port p) :=
    (he.port p).trans (Part.port_modPort_self _ p _)
  have hm := paused_moved ((cellTaken p s).port p)
  have hpl : Placeable p b byte (evalPause p (cellTaken p s)) :=
    ⟨by rw [hp, hm]; exact h.opened, by rw [he.block]; exact h.block, by rw [hp, hm]; exact h.held,
      by rw [hp, hm]; exact h.plain⟩
  rw [hs, hpl.stays h1 (by rw [hp, hm]; exact h2) (by rw [hp, hm]; exact hg), paused_stored, ← storeByte_setPort]
  obtain ⟨m, x, e⟩ := he
  rw [e]
  exact ⟨m, x, rfl⟩

end Sys2Proof.Machine
end

section
namespace Sys2Proof.Machine
open Sys2Proof.Claims

/-! ### A good byte finds the holding slot empty (R34, R67, R70, R83, R84) -/

/-- The record of a new block stands last. -/
theorem Part.block_append {s : Part} {b : Block} (h : ∀ c ∈ s.blocks, c.id ≠ b.id) :
    Part.block { s with blocks := s.blocks ++ [b] } b.id = some b := by
  have hnone : s.blocks.find? (fun c => c.id == b.id) = none := List.find?_eq_none.2 fun c hc => by simpa using h c hc
  simp [Part.block, hnone]

/-- With no open block the cell taken begins one (R67, R84). -/
theorem cellTaken_begins {p : PortNo} {s : Part} {c : Nat} {rest : List Nat}
    (hb : (s.port p).openBlock.bind s.block = none) (hf : s.freeList = c :: rest) : cellTaken p s =
      ({ s with freeList := rest, blocks := s.blocks ++ [newOutputBlock p (s.port p) c] } : Part).setPort p
        { s.port p with openBlock := some c, portUse := (s.port p).portUse + 1 } := by
  have hb : (Part.port { s with freeList := rest } p).openBlock.bind (Part.block { s with freeList := rest }) = none := hb
  unfold cellTaken takeCell
  rw [hf]
  simp only [hb, Part.modPort_modPort]
  rfl

/-- With the open block's last cell full the cell taken is added to it (R67, R83). -/
theorem cellTaken_adds {p : PortNo} {s : Part} {c : Nat} {b : Block} {rest : List Nat}
    (hb : (s.port p).openBlock.bind s.block = some b) (hf : s.freeList = c :: rest) : cellTaken p s =
      (({ s with freeList := rest } : Part).modBlock b.id fun b => { b with cells := b.cells ++ [c] }).setPort p
        { s.port p with portUse := (s.port p).portUse + 1 } := by
  have hb : (Part.port { s with freeList := rest } p).openBlock.bind (Part.block { s with freeList := rest }) = some b := hb
  unfold cellTaken takeCell
  rw [hf]
  simp only [hb]
  rfl

theorem cellTaken_of_none_free {p : PortNo} {s : Part} (hf : s.freeList = []) :
    cellTaken p s = s.modPort p fun x => { x with portUse := x.portUse + 1 } := by
  unfold cellTaken takeCell
  rw [hf]

theorem cellTaken_same {p : PortNo} {s t : Part} (h : SameButNotices s t) : SameButNotices (cellTaken p s) (cellTaken p t) := by
  match hf : s.freeList, hb : (s.port p).openBlock.bind s.block with
  | [], _ =>
    obtain ⟨m, x, rfl⟩ := h
    rw [cellTaken_of_none_free hf]
    exact ⟨m, x, cellTaken_of_none_free (s := { s with notices := m, noticesLost := x }) hf⟩
  | c :: rest, none =>
    obtain ⟨m, x, rfl⟩ := h
    rw [cellTaken_begins hb hf]
    exact ⟨m, x, cellTaken_begins (s := { s with notices := m, noticesLost := x }) hb hf⟩
  | c :: rest, some b =>
    obtain ⟨m, x, rfl⟩ := h
    rw [cellTaken_adds hb hf]
    exact ⟨m, x, cellTaken_adds (s := { s with notices := m, noticesLost := x }) hb hf⟩

/-- What an admitted byte leaves that does not fill its block `b`, `s` being the part with the cell taken (R67, R83, R84). -/
structure CellFilled (p : PortNo) (b : Block) (byte : Byte) (s u : Part) : Prop where
  block : u.block b.id = some { b with length := b.length + 1 }
  mem : u.mem = Memory.write s.mem (Memory.addressOf b.cells b.length) byte
  freeList : u.freeList = s.freeList
  waitList : u.waitList = s.waitList
  port : u.port p = paused (s.port p).stored

theorem Placeable.same {p : PortNo} {b : Block} {byte : Byte} {s t : Part} (h : Placeable p b byte s) (e : SameButNotices s t) :
    Placeable p b byte t :=
  ⟨by rw [e.port]; exact h.opened, by rw [e.block]; exact h.block, by rw [e.port]; exact h.held, by rw [e.port]; exact h.plain⟩

theorem storeByte_same {p : PortNo} {b : Block} {byte : Byte} {s t : Part} (h : SameButNotices s t) :
    SameButNotices (storeByte p b byte s) (storeByte p b byte t) := by
  obtain ⟨m, x, rfl⟩ := h
  exact ⟨m, x, rfl⟩

theorem requestCell_fills {p : PortNo} {b : Block} {byte : Byte} {s : Part} (ha : s.cellAdmissible p = true)
    (h : Placeable p b byte (cellTaken p s)) (h1 : b.length + 1 ≠ 512)
    (h2 : b.length + 1 ≠ ((cellTaken p s).port p).profile.blockLimit) (hg : ((cellTaken p s).port p).gapTimer ≠ none)
    (hw : (cellTaken p s).walkDue = false) : CellFilled p b byte (cellTaken p s) (settleWalks (requestCell p s)) := by
  have hq : SameButNotices (cellTaken p s) (cellTaken p { s with notices := [], noticesLost := false }) :=
    cellTaken_same ⟨_, _, rfl⟩
  have hport := hq.port p
  have hs := (admitCell_placed (h.same hq) h1 (by rwa [hport]) (by rwa [hport])).trans (requestCell_admits ha)
  rw [hport] at hs
  have hs := ((storeByte_same hq).modPort p fun _ => paused ((cellTaken p s).port p).stored).trans hs
  rw [settleWalks_of_none_due (hs.walkDue.trans hw)]
  refine ⟨?_, hs.mem, hs.freeList, hs.waitList, (hs.port p).trans (Part.port_modPort_self _ p _)⟩
  rw [hs.block]
  refine (storeByte_block p b byte (cellTaken p s) b.id).trans ?_
  rw [if_pos rfl, h.block]
  rfl

/-- A byte of the first length of a new cell lies in that cell. -/
theorem Memory.addressOf_append (cells : List Nat) (c : Nat) :
    Memory.addressOf (cells ++ [c]) (64 * cells.length) = 64 * c := by
  have hdiv : 64 * cells.length / Config.cellSize = cells.length := Nat.mul_div_cancel_left _ (by decide)
  have hmod : 64 * cells.length % Config.cellSize = 0 := Nat.mul_mod_right _ _
  rw [Memory.addressOf, hdiv, hmod, Nat.mul_comm]
  simp [Config.cellSize]

/-- A character that is good and no flow character is held and offered to the store, when the slot is empty (R30 to R34). -/
theorem completeRx_good {p : PortNo} {s : Part} {r : RxSample} (hc : (s.port p).canReceive) (hm : r.stopMark = true)
    (hp : (readChar (s.port p).profile r).parity = false)
    (hf : ¬((s.port p).profile.flow = .soft ∧
      ((readChar (s.port p).profile r).byte = xonByte ∨ (readChar (s.port p).profile r).byte = xoffByte)))
    (hs : (s.port p).engine.slot = none) : completeRx p r s =
      offerHeldByte p (s.setPort p (((s.port p).heard r).holdByte (readChar (s.port p).profile r).byte)) := by
  have hb : ¬(readChar (s.port p).profile r).isBreak = true := fun h => by simp [hm, readChar_isBreak] at h
  have hframe : (readChar (s.port p).profile r).framing = false :=
    Bool.eq_false_iff.2 fun h => by simp [hm, readChar_framing] at h
  have herr : ¬((readChar (s.port p).profile r).framing || (readChar (s.port p).profile r).parity) = true := by
    simp [hp, hframe]
  have hslot : ((s.setPort p ((s.port p).heard r)).port p).engine.slot = none := by
    rw [Part.port_setPort_self]
    exact hs
  rw [completeRx_heard hc hb]
  simp only [if_neg herr, if_neg hf]
  rw [receiveGood, hslot]
  simp only [Part.modPort_eq, Part.port_setPort_self, Part.setPort_setPort]

/-- A byte held and stored at once leaves the slot empty, as it was. -/
theorem Port.stored_held {x : Port} (byte : Byte) (h : x.engine.slot = none) :
    (x.holdByte byte).stored = { x with streamOffset := x.streamOffset + 1 } := by
  have : ({ x.engine with slot := none } : Engine) = x.engine := by rw [← h]
  unfold Port.stored Port.holdByte
  simp only [this]

/-- With room in the open block's current cell the byte is stored there (R83, R85). -/
theorem offerHeldByte_placed {p : PortNo} {s : Part} {x : Port} {id : Nat} {b : Block} (byte : Byte)
    (ho : x.openBlock = some id) (hb : s.block id = some b) (hl : b.length % 64 ≠ 0) (ht : x.profile.triggerSet = 0)
    (hg : x.gapTimer ≠ none) :
    BytePlaced p b byte (s.setPort p (x.holdByte byte)) (offerHeldByte p (s.setPort p (x.holdByte byte))) := by
  have hx : (s.setPort p (x.holdByte byte)).port p = x.holdByte byte := Part.port_setPort_self _ _ _
  have hplace : Placeable p b byte (s.setPort p (x.holdByte byte)) :=
    ⟨by rw [hx, Part.block_id hb]; exact ho, by rw [Part.block_id hb]; exact hb, by rw [hx]; rfl, by rw [hx]; exact ht⟩
  rw [offerHeldByte_room (s := s.setPort p (x.holdByte byte)) (by rw [hx]; exact ho) hb hl]
  exact hplace.placed (by rw [hx]; exact hg)

/-- With no open block, or its last cell full, the held byte asks for a cell (R67). -/
theorem offerHeldByte_setPort_asks {p : PortNo} {s : Part} {x : Port}
    (h : ∀ id b, x.openBlock = some id → s.block id = some b → b.length % 64 = 0) :
    offerHeldByte p (s.setPort p x) = settleWalks (requestCell p (s.setPort p x)) := by
  refine offerHeldByte_asks fun id b ho hb => ?_
  rw [Part.port_setPort_self] at ho
  exact h id b ho hb

/-- With no open block an admitted byte begins one in the head of the free list (R67, R84). -/
theorem offerHeldByte_begins {p : PortNo} {s : Part} {x : Port} {c : Nat} {rest : List Nat} {byte : Byte}
    (ha : (s.setPort p x).cellAdmissible p = true) (ho : x.openBlock = none) (hf : s.freeList = c :: rest)
    (hid : ∀ b ∈ s.blocks, b.id ≠ c) (hs : x.engine.slot = some byte) (ht : x.profile.triggerSet = 0)
    (hl : x.profile.blockLimit ≠ 1) (hg : x.gapTimer ≠ none) (hw : s.walkDue = false) :
    CellFilled p (newOutputBlock p x c) byte
      (({ s with freeList := rest, blocks := s.blocks ++ [newOutputBlock p x c] } : Part).setPort p
        { x with openBlock := some c, portUse := x.portUse + 1 })
      (offerHeldByte p (s.setPort p x)) := by
  have hx : (s.setPort p x).port p = x := Part.port_setPort_self _ _ _
  have htake : cellTaken p (s.setPort p x) =
      ({ s with freeList := rest, blocks := s.blocks ++ [newOutputBlock p x c] } : Part).setPort p
        { x with openBlock := some c, portUse := x.portUse + 1 } := by
    rw [cellTaken_begins (by rw [hx, ho]; rfl) (by rw [Part.setPort_freeList]; exact hf), hx]
    exact Part.setPort_setPort { s with freeList := rest, blocks := s.blocks ++ [newOutputBlock p x c] } p x _
  have hport := congrArg (Part.port · p) htake
  simp only [Part.port_setPort_self] at hport
  rw [offerHeldByte_setPort_asks (fun id b h => by rw [ho] at h; cases h), ← htake]
  refine requestCell_fills ha ⟨by rw [hport]; rfl, ?_, by rw [hport]; exact hs, by rw [hport]; exact ht⟩
    (by simp [newOutputBlock])
    (by rw [hport]; exact fun h => hl h.symm) (by rw [hport]; exact hg) (by rw [htake]; exact hw)
  rw [htake]
  exact Part.block_append (s := { s with freeList := rest }) hid

/-- With the open block's last cell full an admitted byte adds the head of the free list to it (R67, R83). -/
theorem offerHeldByte_adds {p : PortNo} {s : Part} {x : Port} {id c : Nat} {b : Block} {rest : List Nat} {byte : Byte}
    (ha : (s.setPort p x).cellAdmissible p = true) (ho : x.openBlock = some id) (hb : s.block id = some b)
    (hfull : b.length = 64 * b.cells.length) (hf : s.freeList = c :: rest)
    (hs : x.engine.slot = some byte) (ht : x.profile.triggerSet = 0) (hl : x.profile.blockLimit ≠ b.length + 1)
    (hg : x.gapTimer ≠ none) (hw : s.walkDue = false) :
    CellFilled p { b with cells := b.cells ++ [c] } byte
      ((({ s with freeList := rest } : Part).modBlock id fun b => { b with cells := b.cells ++ [c] }).setPort p
        { x with portUse := x.portUse + 1 })
      (offerHeldByte p (s.setPort p x)) := by
  have hx : (s.setPort p x).port p = x := Part.port_setPort_self _ _ _
  obtain rfl := Part.block_id hb
  have hbind : ((s.setPort p x).port p).openBlock.bind (s.setPort p x).block = some b := by
    rw [hx, ho]
    exact hb
  have htake : cellTaken p (s.setPort p x) =
      (({ s with freeList := rest } : Part).modBlock b.id fun b => { b with cells := b.cells ++ [c] }).setPort p
        { x with portUse := x.portUse + 1 } := by
    rw [cellTaken_adds hbind (by rw [Part.setPort_freeList]; exact hf), hx]
    exact Part.setPort_setPort (({ s with freeList := rest } : Part).modBlock b.id fun b => { b with cells := b.cells ++ [c] }) p x _
  have hport := congrArg (Part.port · p) htake
  simp only [Part.port_setPort_self] at hport
  rw [offerHeldByte_setPort_asks (fun id b' h h' => ?_), ← htake]
  · refine requestCell_fills ha ⟨by rw [hport]; exact ho, ?_, by rw [hport]; exact hs, by rw [hport]; exact ht⟩ ?_
      (by rw [hport]; exact fun h => hl h.symm) (by rw [hport]; exact hg) (by rw [htake]; exact hw)
    · rw [htake]
      refine (Part.block_modBlock { s with freeList := rest } b.id (f := fun b => { b with cells := b.cells ++ [c] })
        (fun _ => rfl) b.id).trans ?_
      rw [if_pos rfl, show Part.block { s with freeList := rest } b.id = some b from hb]
      rfl
    · show b.length + 1 ≠ 512
      omega
  · obtain rfl := Option.some.inj (ho.symm.trans h)
    obtain rfl := Option.some.inj (hb.symm.trans h')
    omega

/-- An admission wait is counted, and the port stands on the wait list once (R70). -/
theorem startWait_eq (p : PortNo) (s : Part) : startWait p s =
    ({ s with waitList := if p ∈ s.waitList then s.waitList else s.waitList ++ [p] } : Part).modPort p fun x =>
      { x with counters := { x.counters with admissionWaits := x.counters.admissionWaits + 1 } } := by
  unfold startWait
  simp only [List.contains_iff_mem]
  split_ifs <;> rfl

theorem startWait_port (p : PortNo) (s : Part) : (startWait p s).port p = { s.port p with
    counters := { (s.port p).counters with admissionWaits := (s.port p).counters.admissionWaits + 1 } } := by
  rw [startWait_eq]
  exact Part.port_modPort_self _ p _

/-- Refused, with no history to yield, the byte waits in its slot and the port on the wait list (R69, R70). -/
theorem offerHeldByte_waits {p : PortNo} {s : Part} (ha : ¬s.cellAdmissible p = true)
    (hr : ∀ id b, (s.port p).openBlock = some id → s.block id = some b → b.length % 64 = 0) (hc : (s.port p).chain = [])
    (hw : s.walkDue = false) : SameButNotices (startWait p s) (offerHeldByte p s) := by
  have hwait : SameButNotices (startWait p s) (startWait p { s with notices := [], noticesLost := false }) := by
    rw [startWait_eq, startWait_eq]
    exact ⟨[], false, rfl⟩
  have hsame := hwait.trans (requestCell_waits ha hc)
  rw [offerHeldByte_asks hr, settleWalks_of_none_due]
  · exact hsame
  · rw [hsame.walkDue, startWait_eq]
    exact hw

theorem Port.heard_of_mark {x : Port} {r : RxSample} (h : r.stopMark = true) : x.heard r = { x with
    pins := { x.pins with rxd := true }
    engine := { x.engine with receiver := .hunting }
    gapTimer := some (x.profile.idleGap * x.profile.charBits * (2 * x.profile.d8)) } := by
  unfold Port.heard
  rw [h]
  rfl

/-- Settles O49, by the open block: with room in it, none, or full with the cell admitted; and by the refusal. -/
theorem goodBytesAreStoredOrWait : Obligations.GoodBytesAreStoredOrWait := by
  unfold Obligations.GoodBytesAreStoredOrWait
  intro s p r x byte ones parity reserves inUse admitted stored hrun hrx hm hpar hflow hslot htrig hwalk
  have hfails : ¬(readChar x.profile r).parity = true := mt (readChar_parity x.profile r).1 hpar
  have hgood : completeRx p r s.part = offerHeldByte p (s.part.setPort p ((x.heard r).holdByte byte)) :=
    completeRx_good ((s.part.port p).canReceive_iff.2 ⟨hrun, hrx⟩) hm (Bool.eq_false_iff.2 hfails) hflow hslot
  have hends {P : State → Prop} (h : P { s with part := offerHeldByte p (s.part.setPort p ((x.heard r).holdByte byte)) }) :
      Ends (.rxCharacterComplete p r) s P := by
    refine ⟨_, ?_, h⟩
    show donePart (completeRx p r) s = _
    rw [donePart, hgood, done]
  have hheard := Port.heard_of_mark (x := x) hm
  have hgap : (x.heard r).gapTimer ≠ none := Option.some_ne_none _
  have hadm : (s.part.setPort p ((x.heard r).holdByte byte)).cellAdmissible p = true ↔ admitted := by
    rw [Part.cellAdmissible_setPort (by rfl) (by rfl), Part.cellAdmissible_iff]
  refine ⟨fun id b ho hb hl hmem => hends ?_, fun c rest ho ha hf hl hid hmem => hends ?_,
    fun id b c rest ho hb hn hfull ha hf hl hmem => hends ?_, fun hr ha hc => hends ?_⟩
  · obtain ⟨hmem', hblock, hport⟩ := offerHeldByte_placed (p := p) byte (x := x.heard r) ho hb hl htrig hgap
    have hstored : ((x.heard r).holdByte byte).stored = { x.heard r with streamOffset := x.streamOffset + 1 } :=
      Port.stored_held byte hslot
    rw [Part.port_setPort_self, hstored] at hport
    obtain rfl := Part.block_id hb
    obtain ⟨hoffset, hengine, huse⟩ : ((offerHeldByte p (s.part.setPort p ((x.heard r).holdByte byte))).port p).streamOffset =
        x.streamOffset + 1 ∧ ((offerHeldByte p (s.part.setPort p ((x.heard r).holdByte byte))).port p).engine = (x.heard r).engine ∧
        ((offerHeldByte p (s.part.setPort p ((x.heard r).holdByte byte))).port p).portUse = x.portUse := by
      rw [hport, Port.closed_eq]
      split_ifs <;> exact ⟨rfl, rfl, rfl⟩
    dsimp only
    rw [hmem', hengine]
    refine ⟨Memory.read_write_self hmem _ _, fun _ ha => Memory.read_write_ne _ _ ha, hoffset,
      congrArg Port.engine hheard, huse, hblock.trans (by rw [Part.port_setPort_self]; rfl),
      fun hfills => ?_, fun h1 h2 => ?_⟩
    · rw [hport.trans (if_pos hfills), Port.closed_eq]
      exact ⟨rfl, congrArg (x.blockQueue ++ ·.toList) ho⟩
    · rw [hport.trans (if_neg (not_or.2 ⟨h1, h2⟩))]
      exact ⟨ho, rfl⟩
  · obtain ⟨hblock, hmem', hfree, hwait, hport⟩ :=
      offerHeldByte_begins (x := (x.heard r).holdByte byte) (hadm.2 ha) ho hf hid rfl htrig hl hgap hwalk
    have haddr : Memory.addressOf (newOutputBlock p ((x.heard r).holdByte byte) c).cells
        (newOutputBlock p ((x.heard r).holdByte byte) c).length = 64 * c := Memory.addressOf_append [] c
    have hstored := Port.stored_held (x := { x.heard r with openBlock := some c, portUse := x.portUse + 1 }) byte hslot
    rw [haddr] at hmem'
    dsimp only
    rw [hmem']
    refine ⟨hblock, Memory.read_write_self hmem _ _, fun _ ha => Memory.read_write_ne _ _ ha, hfree, hwait, hport.trans ?_⟩
    rw [Part.port_setPort_self]
    refine congrArg paused (hstored.trans ?_)
    rw [hheard]
  · obtain ⟨hblock, hmem', hfree, hwait, hport⟩ :=
      offerHeldByte_adds (x := (x.heard r).holdByte byte) (hadm.2 ha) ho hb hfull hf rfl htrig hl hgap hwalk
    have hstored := Port.stored_held (x := { x.heard r with portUse := x.portUse + 1 }) byte hslot
    have haddr : Memory.addressOf (b.cells ++ [c]) b.length = 64 * c := by rw [hfull, Memory.addressOf_append]
    rw [haddr] at hmem'
    dsimp only
    rw [hmem', ← Part.block_id hb]
    refine ⟨hblock, Memory.read_write_self hmem _ _, fun _ ha => Memory.read_write_ne _ _ ha, hfree, hwait, hport.trans ?_⟩
    rw [Part.port_setPort_self]
    refine congrArg paused (hstored.trans ?_)
    rw [hheard]
  · have h := offerHeldByte_waits (p := p) (s := s.part.setPort p ((x.heard r).holdByte byte)) (mt hadm.1 ha)
      (by rw [Part.port_setPort_self]; exact hr) (by rw [Part.port_setPort_self]; exact hc) hwalk
    have hport := (h.port p).trans (startWait_port p _)
    rw [Part.port_setPort_self] at hport
    rw [startWait_eq] at h
    dsimp only
    rw [hport]
    exact ⟨congrArg (fun y => ({ y.engine with slot := some byte } : Engine)) hheard, h.waitList, rfl, rfl, rfl, h.mem,
      h.blocks, h.freeList⟩

end Sys2Proof.Machine
end

section
namespace Sys2Proof.Machine
open Sys2Proof.Claims

/-! ### What storing a byte never undoes: error counters and conditions (R32, R178) -/

/-- The error counters of the port stand, and a condition that was set stays set. -/
structure KeepsErrors (x y : Port) : Prop where
  errorsKept : y.counters.errorsKept = x.counters.errorsKept
  errorsDropped : y.counters.errorsDropped = x.counters.errorsDropped
  conditions : ∀ c, hasCondition x.conditions c = true → hasCondition y.conditions c = true

theorem KeepsErrors.refl (x : Port) : KeepsErrors x x := ⟨rfl, rfl, fun _ h => h⟩

theorem KeepsErrors.trans {x y z : Port} (a : KeepsErrors x y) (b : KeepsErrors y z) : KeepsErrors x z :=
  ⟨b.errorsKept.trans a.errorsKept, b.errorsDropped.trans a.errorsDropped, fun c h => b.conditions c (a.conditions c h)⟩

/-- A change that leaves both error counters and the conditions as they are. -/
theorem KeepsErrors.of_eq {x y : Port} (hk : y.counters.errorsKept = x.counters.errorsKept)
    (hd : y.counters.errorsDropped = x.counters.errorsDropped) (hc : y.conditions = x.conditions) : KeepsErrors x y :=
  ⟨hk, hd, fun _ h => hc ▸ h⟩

theorem KeepsErrors.paused (x : Port) : KeepsErrors x (paused x) := by
  have h := congrArg Port.counters (paused_moved x)
  exact ⟨congrArg PortCounters.errorsKept h, congrArg PortCounters.errorsDropped h, fun _ => paused_conditions⟩

theorem KeepsErrors.withCondition (x : Port) (c : Condition) : KeepsErrors x (x.withCondition c) :=
  ⟨rfl, rfl, fun e h => (hasCondition_or _ _ e).trans (by rw [h, Bool.true_or])⟩

theorem KeepsErrors.closed (x : Port) : KeepsErrors x x.closed := by
  rw [Port.closed_eq]
  exact .of_eq rfl rfl rfl

theorem KeepsErrors.gapStarted (x : Port) : KeepsErrors x (if x.gapTimer = none then x.startGap else x) := by
  split_ifs
  · exact .of_eq rfl rfl rfl
  · exact .refl x

/-- No port of the part loses an error count or a condition. -/
def PortsKeepErrors (s t : Part) : Prop := ∀ q, KeepsErrors (s.port q) (t.port q)

namespace PortsKeepErrors
variable {s t u : Part}

theorem of_ports (h : t.ports = s.ports) : PortsKeepErrors s t := fun q => by
  rw [show t.port q = s.port q from congrArg (·[q]) h]
  exact .refl _

theorem refl (s : Part) : PortsKeepErrors s s := of_ports rfl

theorem trans (a : PortsKeepErrors s t) (b : PortsKeepErrors t u) : PortsKeepErrors s u := fun q => (a q).trans (b q)

theorem modPort (s : Part) (p : PortNo) {f : Port → Port} (h : KeepsErrors (s.port p) (f (s.port p))) :
    PortsKeepErrors s (s.modPort p f) := fun q => by
  by_cases hq : q = p
  · subst hq
    rw [Part.port_modPort_self]
    exact h
  · rw [Part.port_modPort_ne s p q f (Ne.symm hq)]
    exact .refl _

theorem thenModPort (a : PortsKeepErrors s t) (p : PortNo) {f : Port → Port} (h : KeepsErrors (t.port p) (f (t.port p))) :
    PortsKeepErrors s (t.modPort p f) := a.trans (modPort t p h)

theorem same (h : SameButNotices s t) : PortsKeepErrors s t := of_ports h.ports

theorem inTableOrder (p : PortNo) {f : Part → Part} (h : ∀ s, PortsKeepErrors s (f s)) (s : Part) :
    PortsKeepErrors s (inTableOrder p f s) :=
  (of_ports rfl).trans ((h { s with notices := [], noticesLost := false }).trans (same (inTableOrder_same p f s)))

theorem foldl {α : Type} {f : Part → α → Part} (h : ∀ s a, PortsKeepErrors s (f s a)) (l : List α) (s : Part) :
    PortsKeepErrors s (l.foldl f s) := by
  induction l generalizing s with
  | nil => exact .refl s
  | cons a rest ih => exact (h s a).trans (ih (f s a))

theorem evalPause (p : PortNo) (s : Part) : PortsKeepErrors s (evalPause p s) :=
  (modPort s p (.paused _)).trans (same (evalPause_same p s))

theorem setCondition (p : PortNo) (c : Condition) (s : Part) : PortsKeepErrors s (setCondition p c s) :=
  (modPort s p (.withCondition _ c)).trans (same (setCondition_same p c s))

theorem freeBlock (b : Block) (s : Part) : PortsKeepErrors s (freeBlock b s) := by
  unfold Machine.freeBlock
  dsimp only
  split
  · exact of_ports rfl
  · refine trans ?_ (evalPause b.port _)
    exact modPort s b.port (f := fun x => { x with portUse := x.portUse - b.cells.length }) (.of_eq rfl rfl rfl)

theorem dropHold (id : Nat) (s : Part) : PortsKeepErrors s (dropHold id s) := by
  unfold Machine.dropHold
  split
  · exact refl s
  · split
    · exact freeBlock _ s
    · exact of_ports rfl

theorem closeBlock (p : PortNo) (r : CloseReason) (s : Part) : PortsKeepErrors s (closeBlock p r s) := by
  intro q
  by_cases hq : q = p
  · subst hq
    rw [closeBlock_port]
    exact .closed _
  · rw [closeBlock_port_ne r s hq]
    exact .refl _

theorem fireTrigger (p : PortNo) (t : TriggerNo) (o : Word32) (s : Part) : PortsKeepErrors s (fireTrigger p t o s).1 := by
  have mark (g : Nat) : PortsKeepErrors s (markOpenBlock p g s) := by
    unfold markOpenBlock
    split <;> exact of_ports rfl
  have notice (s : Part) : PortsKeepErrors s (noticeMatch p t o s) :=
    (modPort s p (.of_eq rfl rfl rfl)).trans (setCondition p .pattern _)
  unfold Machine.fireTrigger
  dsimp only
  split_ifs
  · exact (mark _).trans (notice _)
  · exact notice s
  · exact mark _
  · exact refl s

theorem advanceTrigger (p : PortNo) (b : Byte) (o : Word32) (acc : Part × Bool) (t : TriggerNo) :
    PortsKeepErrors acc.1 (advanceTrigger p b o acc t).1 := by
  unfold Machine.advanceTrigger
  dsimp only
  split_ifs
  · exact (modPort acc.1 p (.of_eq rfl rfl rfl)).trans (fireTrigger p t o _)
  · exact modPort acc.1 p (.of_eq rfl rfl rfl)
  · exact refl acc.1

theorem advanceTriggers (p : PortNo) (b : Byte) (o : Word32) (s : Part) : PortsKeepErrors s (advanceTriggers p b o s).1 := by
  have steps (l : List TriggerNo) (acc : Part × Bool) :
      PortsKeepErrors acc.1 (l.foldl (Machine.advanceTrigger p b o) acc).1 := by
    induction l generalizing acc with
    | nil => exact refl acc.1
    | cons t rest ih => exact (advanceTrigger p b o acc t).trans (ih _)
  exact steps allTriggers (s, false)

theorem placeByte (p : PortNo) (s : Part) : PortsKeepErrors s (placeByte p s) := by
  unfold Machine.placeByte
  split
  · next b v _ _ =>
    have store : PortsKeepErrors s (storeByte p b v s) := by
      unfold storeByte
      refine thenModPort ?_ p (.of_eq rfl rfl rfl)
      exact of_ports rfl
    refine (store.trans (advanceTriggers p v (s.port p).streamOffset _)).trans ?_
    dsimp only
    split
    · exact closeBlock p _ _
    · exact modPort _ p (.gapStarted _)
  · exact refl s

theorem yieldOldest (p : PortNo) (id : Nat) (s : Part) : PortsKeepErrors s (yieldOldest p id s) :=
  ((modPort s p (.of_eq rfl rfl rfl)).trans (setCondition p .historyYield _)).trans (dropHold id _)

theorem yieldHistory (p : PortNo) (chain : List Nat) (s : Part) : PortsKeepErrors s (yieldHistory p chain s).1 := by
  induction chain generalizing s with
  | nil => exact refl s
  | cons id rest ih =>
    unfold Machine.yieldHistory
    dsimp only
    split_ifs
    · exact yieldOldest p id s
    · exact (yieldOldest p id s).trans (ih _)

theorem decideCell (p : PortNo) (s : Part) : PortsKeepErrors s (decideCell p s).1 := by
  unfold Machine.decideCell
  split_ifs
  · exact refl s
  · exact yieldHistory p _ s

theorem takeCell (p : PortNo) (s : Part) : PortsKeepErrors s (takeCell p s) := by
  unfold Machine.takeCell
  split
  · exact refl s
  · next c rest _ =>
    dsimp only
    split
    · refine thenModPort ?_ p (.of_eq rfl rfl rfl)
      exact of_ports rfl
    · exact of_ports rfl

theorem admitCell (p : PortNo) (s : Part) : PortsKeepErrors s (admitCell p s) :=
  (((takeCell p s).trans (modPort _ p (.of_eq rfl rfl rfl))).trans (evalPause p _)).trans (placeByte p _)

theorem startWait (p : PortNo) (s : Part) : PortsKeepErrors s (startWait p s) := by
  rw [startWait_eq]
  refine thenModPort ?_ p (.of_eq rfl rfl rfl)
  exact of_ports rfl

theorem requestCell (p : PortNo) (s : Part) : PortsKeepErrors s (requestCell p s) := by
  refine inTableOrder p (fun s => ?_) s
  dsimp only
  split_ifs
  · exact (decideCell p s).trans (admitCell p _)
  · exact (decideCell p s).trans (startWait p _)

theorem retryPort (p : PortNo) (s : Part) : PortsKeepErrors s (retryPort p s) := by
  unfold Machine.retryPort
  split_ifs
  · refine inTableOrder p (fun s => ?_) s
    dsimp only
    split_ifs
    · refine trans ?_ (admitCell p _)
      exact (decideCell p s).trans (of_ports rfl)
    · exact decideCell p s
  · exact refl s

theorem settleWalks (s : Part) : PortsKeepErrors s (settleWalks s) := by
  have walk (n : Nat) (s : Part) : PortsKeepErrors s (walks n s) := by
    induction n generalizing s with
    | zero => exact refl s
    | succ n ih =>
      unfold walks
      split_ifs
      · exact (trans (of_ports rfl) (foldl (fun s p => retryPort p s) s.waitList { s with walkDue := false })).trans (ih _)
      · exact refl s
  exact walk _ s

theorem offerHeldByte (p : PortNo) (s : Part) : PortsKeepErrors s (offerHeldByte p s) := by
  unfold Machine.offerHeldByte
  split
  · split_ifs
    · exact (requestCell p s).trans (settleWalks _)
    · exact placeByte p s
  · exact (requestCell p s).trans (settleWalks _)

end PortsKeepErrors

end Sys2Proof.Machine
end

section
namespace Sys2Proof.Machine
open Sys2Proof.Claims

/-! ### Breaks, errors and overruns (R30 to R34) -/

/-- The port that heard a break, its block not closed yet (R31). -/
def Port.broken (x : Port) : Port :=
  { x with
    engine := { x.engine with receiver := .waitMark }
    counters := { x.counters with breaks := x.counters.breaks + 1 }
    conditions := x.conditions ||| Condition.rxBreak.bit }

/-- A break: the port is broken, its block closes and its idle gap stops (R31, R89). -/
theorem receiveBreak_same (p : PortNo) (s : Part) : ∃ t, SameButNotices (s.modPort p Port.broken) t ∧
    receiveBreak p s = (closeBlock p .breakFound t).modPort p fun x => { x with gapTimer := none } := by
  refine ⟨_, ?_, rfl⟩
  have h := setCondition_same p .rxBreak (s.modPort p fun x =>
    { x with engine := { x.engine with receiver := .waitMark }
             counters := { x.counters with breaks := x.counters.breaks + 1 } })
  rw [Part.modPort_modPort] at h
  exact h

theorem receiveBreak_port (p : PortNo) (s : Part) : (receiveBreak p s).port p = { (s.port p).broken with
    openBlock := none, gapTimer := none, blockQueue := (s.port p).blockQueue ++ (s.port p).openBlock.toList } := by
  obtain ⟨t, h, e⟩ := receiveBreak_same p s
  rw [e, Part.port_modPort_self, closeBlock_port, Port.closed_eq, h.port, Part.port_modPort_self]
  rfl

theorem receiveBreak_port_ne {p q : PortNo} (s : Part) (hq : q ≠ p) : (receiveBreak p s).port q = s.port q := by
  obtain ⟨t, h, e⟩ := receiveBreak_same p s
  rw [e, Part.port_modPort_ne _ p q _ hq.symm, closeBlock_port_ne _ _ hq, h.port, Part.port_modPort_ne s p q _ hq.symm]

theorem receiveBreak_block {p : PortNo} {s : Part} {id : Nat} (ho : (s.port p).openBlock = some id) :
    (receiveBreak p s).block id = (s.block id).map fun b => { b with closeReason := some .breakFound } := by
  obtain ⟨t, h, e⟩ := receiveBreak_same p s
  have hopen : (t.port p).openBlock = some id := by
    rw [h.port, Part.port_modPort_self]
    exact ho
  rw [e]
  refine (closeBlock_block p .breakFound t id).trans ?_
  rw [if_pos hopen, h.block]
  rfl

theorem receiveBreak_rest (p : PortNo) (s : Part) : (receiveBreak p s).sessions = s.sessions ∧
    (receiveBreak p s).queues = s.queues ∧ (receiveBreak p s).mem = s.mem := by
  obtain ⟨t, h, e⟩ := receiveBreak_same p s
  rw [e, closeBlock_eq]
  exact ⟨h.sessions, h.queues, h.mem⟩

/-- FRAMING and PARITY are set as found (R32). -/
theorem setErrors_same (p : PortNo) (c : RxChar) (s : Part) :
    SameButNotices (s.modPort p fun x => { x with conditions := x.conditions ||| c.errors }) (setErrors p c s) := by
  have stands : (s.modPort p fun x => { x with conditions := x.conditions ||| (0 ||| 0) }) = s := by
    refine (congrArg (s.setPort p) ?_).trans (Part.setPort_port_self s p)
    simp only [BitVec.or_self, BitVec.ofNat_eq_ofNat, BitVec.or_zero]
  unfold setErrors RxChar.errors
  cases c.framing <;> cases c.parity
  · simp only [Bool.false_eq_true, if_false]
    rw [stands]
    exact .refl s
  · simp only [Bool.false_eq_true, if_false, if_true]
    exact setCondition_same p .parity s
  · simp only [Bool.false_eq_true, if_false, if_true]
    exact setCondition_same p .framing s
  · simp only [if_true]
    have h := (setCondition_same p .framing s).modPort p (·.withCondition .parity)
    rw [Part.modPort_modPort] at h
    simp only [Port.withCondition, BitVec.or_assoc] at h
    exact h.trans (setCondition_same p .parity _)

theorem overrunByte_same (p : PortNo) (s : Part) : SameButNotices (s.modPort p fun x => { x with
    conditions := x.conditions ||| Condition.overrun.bit, counters := { x.counters with overrun := x.counters.overrun + 1 } })
    (overrunByte p s) := by
  have h := setCondition_same p .overrun
    (s.modPort p fun x => { x with counters := { x.counters with overrun := x.counters.overrun + 1 } })
  rw [Part.modPort_modPort] at h
  exact h

/-- Under DROP an error is counted and the character is gone (R32). -/
theorem receiveError_drops {p : PortNo} {c : RxChar} {s : Part} {y : Port} (h : y.profile.errorPolicy = .drop) :
    SameButNotices (s.setPort p { y with
      conditions := y.conditions ||| c.errors, counters := { y.counters with errorsDropped := y.counters.errorsDropped + 1 } })
      (receiveError p c (s.setPort p y)) := by
  unfold receiveError
  rw [Part.port_setPort_self, h]
  have hs := setErrors_same p c (s.setPort p { y with counters := { y.counters with errorsDropped := y.counters.errorsDropped + 1 } })
  rw [Part.modPort_eq, Part.port_setPort_self, Part.setPort_setPort] at hs
  rw [Part.modPort_eq, Part.port_setPort_self, Part.setPort_setPort]
  exact hs

/-- Under KEEP with the slot full the character is lost with OVERRUN (R32, R34; log 15). -/
theorem receiveError_overruns {p : PortNo} {c : RxChar} {s : Part} {y : Port} (h : y.profile.errorPolicy = .keep)
    (hs : y.engine.slot ≠ none) : SameButNotices (s.setPort p { y with
      conditions := y.conditions ||| Condition.overrun.bit ||| c.errors
      counters := { y.counters with overrun := y.counters.overrun + 1 } })
      (receiveError p c (s.setPort p y)) := by
  obtain ⟨v, hv⟩ := Option.ne_none_iff_exists'.1 hs
  unfold receiveError
  rw [Part.port_setPort_self, h, hv]
  have ho := overrunByte_same p (s.setPort p y)
  rw [Part.modPort_eq, Part.port_setPort_self, Part.setPort_setPort] at ho
  have he := (ho.modPort p fun x => { x with conditions := x.conditions ||| c.errors }).trans (setErrors_same p c _)
  rw [Part.modPort_eq, Part.port_setPort_self, Part.setPort_setPort] at he
  exact he

/-- A byte that finds the slot full is lost with OVERRUN (R34). -/
theorem receiveGood_overruns {p : PortNo} {byte : Byte} {s : Part} {y : Port} (hs : y.engine.slot ≠ none) :
    SameButNotices (s.setPort p { y with
      conditions := y.conditions ||| Condition.overrun.bit
      counters := { y.counters with overrun := y.counters.overrun + 1 } })
      (receiveGood p byte (s.setPort p y)) := by
  obtain ⟨v, hv⟩ := Option.ne_none_iff_exists'.1 hs
  unfold receiveGood
  rw [Part.port_setPort_self, hv]
  have ho := overrunByte_same p (s.setPort p y)
  rw [Part.modPort_eq, Part.port_setPort_self, Part.setPort_setPort] at ho
  exact ho

/-- The port that keeps a character with an error: it is held and counted, its errors set (R32). -/
def Port.kept (y : Port) (c : RxChar) : Port :=
  { y.holdByte c.byte with
    conditions := y.conditions ||| c.errors
    counters := { y.counters with errorsKept := y.counters.errorsKept + 1 } }

/-- Under KEEP with the slot empty the character is held and offered as a byte is (R32). -/
theorem receiveError_keeps {p : PortNo} {c : RxChar} {s : Part} {y : Port} (h : y.profile.errorPolicy = .keep)
    (hs : y.engine.slot = none) : ∃ t, SameButNotices (s.setPort p (y.kept c)) t ∧
      receiveError p c (s.setPort p y) = offerHeldByte p t := by
  refine ⟨setErrors p c (s.setPort p
    { y.holdByte c.byte with counters := { y.counters with errorsKept := y.counters.errorsKept + 1 } }), ?_, ?_⟩
  · have he := setErrors_same p c (s.setPort p
      { y.holdByte c.byte with counters := { y.counters with errorsKept := y.counters.errorsKept + 1 } })
    rw [Part.modPort_eq, Part.port_setPort_self, Part.setPort_setPort] at he
    exact he
  · unfold receiveError
    rw [Part.port_setPort_self, h, hs]
    simp only [Part.modPort_eq, Part.port_setPort_self, Part.setPort_setPort]

/-- A kept character is placed at once where the open block has room and the port has no triggers (R32, R83). -/
theorem offerHeldByte_places_kept {p : PortNo} {c : RxChar} {s t : Part} {y : Port} {id : Nat} {b : Block}
    (h : SameButNotices (s.setPort p (y.kept c)) t) (ho : y.openBlock = some id) (hb : s.block id = some b)
    (hl : b.length % 64 ≠ 0) (ht : y.profile.triggerSet = 0) (hg : y.gapTimer ≠ none) :
    BytePlaced p b c.byte t (offerHeldByte p t) := by
  obtain rfl := Part.block_id hb
  have hport : t.port p = y.kept c := (h.port p).trans (Part.port_setPort_self _ _ _)
  have hblock : t.block b.id = some b := (h.block b.id).trans hb
  have hopen : (t.port p).openBlock = some b.id := by rw [hport]; exact ho
  rw [offerHeldByte_room hopen hblock hl]
  exact Placeable.placed ⟨hopen, hblock, by rw [hport]; rfl, by rw [hport]; exact ht⟩ (by rw [hport]; exact hg)

/-- Settles O48, by what the receiver reads of the character: nothing, a break, an error, a flow character or a byte. -/
theorem receivedCharactersAreClassified : Obligations.ReceivedCharactersAreClassified := by
  unfold Obligations.ReceivedCharactersAreClassified
  intro s p r x byte ones framing parity isBreak takes conditions y only
  have hbreak : (readChar x.profile r).isBreak = true ↔ isBreak := readChar_isBreak x.profile r
  have hframing : (readChar x.profile r).framing = true ↔ framing := readChar_framing x.profile r
  have hparity : (readChar x.profile r).parity = true ↔ parity := readChar_parity x.profile r
  have htakes : x.canReceive = true ↔ takes := x.canReceive_iff
  have herrors : (if framing then Condition.framing.bit else 0) ||| (if parity then Condition.parity.bit else 0)
      = (readChar x.profile r).errors := by
    unfold RxChar.errors
    rw [if_congr hframing rfl rfl, if_congr hparity rfl rfl]
  have hnone : conditions false = (readChar x.profile r).errors := by
    rw [← herrors]
    exact congrArg (· ||| _) (BitVec.zero_or)
  have hover : x.conditions ||| conditions true = x.conditions ||| Condition.overrun.bit ||| (readChar x.profile r).errors := by
    rw [← herrors, BitVec.or_assoc]
    exact congrArg _ (BitVec.or_assoc _ _ _)
  have hends {P : State → Prop} (h : P { s with part := completeRx p r s.part }) : Ends (.rxCharacterComplete p r) s P :=
    ⟨_, rfl, h⟩
  have honly {t : Part} {z : Port} (h : SameButNotices (s.part.setPort p z) t) : only { s with part := t } z :=
    ⟨rfl, rfl, h.eq⟩
  have hclass (ht : takes) (hb : ¬isBreak) := completeRx_heard (htakes.2 ht) (mt hbreak.1 hb)
  have herr (ht : takes) (hb : ¬isBreak) (he : framing ∨ parity) : completeRx p r s.part =
      receiveError p (readChar x.profile r) (s.part.setPort p y) :=
    (hclass ht hb).trans (if_pos (Bool.or_eq_true_iff.2 (he.imp hframing.2 hparity.2)))
  have hplain (ht : takes) (hf : ¬framing) (hp : ¬parity) := (hclass ht fun hb => hf hb.1).trans
    (if_neg fun h => (Bool.or_eq_true_iff.1 h).elim (fun h => hf (hframing.1 h)) fun h => hp (hparity.1 h))
  refine ⟨fun ht => ?_, fun ht hb => hends ?_, fun ht hb he hd => hends ?_, fun ht hb he hk hs => hends ?_,
    fun ht hb he hk hs => hends ?_, fun ht hf hp hsoft hbyte => ?_, fun ht hf hp hn hs => hends ?_⟩
  · show donePart (completeRx p r) s = _
    rw [donePart, completeRx_deaf r (mt htakes.1 ht), done]
  · rw [completeRx_break (htakes.2 ht) (hbreak.2 hb)]
    obtain ⟨hsessions, hqueues, hmem⟩ := receiveBreak_rest p
      (s.part.setPort p { x with pins := { x.pins with rxd := r.stopMark || !r.stillSpace } })
    refine ⟨?_, fun id ho => ?_, fun q hq => ?_, hsessions, hqueues, hmem, rfl, rfl⟩
    · dsimp only
      rw [receiveBreak_port, Part.port_setPort_self, hb.1, hb.2.2.2]
      rfl
    · refine receiveBreak_block ?_
      rw [Part.port_setPort_self]
      exact ho
    · exact (receiveBreak_port_ne _ hq).trans (Part.port_setPort_ne _ p q _ hq.symm)
  · rw [herr ht hb he, hnone]
    exact honly (receiveError_drops (y := y) hd)
  · rw [herr ht hb he, hnone]
    obtain ⟨t, hsame, hoffer⟩ := receiveError_keeps (p := p) (c := readChar x.profile r) (s := s.part) (y := y) hk hs
    rw [hoffer]
    have hport : t.port p = y.kept (readChar x.profile r) := (hsame.port p).trans (Part.port_setPort_self _ _ _)
    have herrs := PortsKeepErrors.offerHeldByte p t p
    have hstore := (offerHeldByte_store p t).port p
    rw [hport] at herrs hstore
    refine ⟨herrs.errorsKept, herrs.errorsDropped, hstore.receiver, hstore.pins, herrs.conditions,
      fun id b ho hb' hl htrig hmem => ?_⟩
    have hplaced := offerHeldByte_places_kept hsame ho hb' hl htrig (Option.some_ne_none _)
    have hcell := hplaced.mem.trans (congrArg (Memory.write · _ _) hsame.mem)
    have hz := hplaced.port
    rw [hport, Port.closed_eq] at hz
    obtain ⟨hcond, hoffset, hslot⟩ : ((offerHeldByte p t).port p).conditions = x.conditions ||| (readChar x.profile r).errors ∧
        ((offerHeldByte p t).port p).streamOffset = x.streamOffset + 1 ∧ ((offerHeldByte p t).port p).engine.slot = none := by
      rw [hz]
      split_ifs <;> exact ⟨rfl, rfl, rfl⟩
    refine ⟨hcond, hoffset, hslot, ?_, fun a ha => ?_, ?_⟩
    · exact (congrArg (Memory.read · _) hcell).trans (Memory.read_write_self hmem _ _)
    · exact (congrArg (Memory.read · a) hcell).trans (Memory.read_write_ne _ _ ha)
    · rw [← Part.block_id hb']
      exact congrArg (Option.map Block.length) hplaced.block
  · rw [herr ht hb he, hover]
    exact honly (receiveError_overruns (y := y) hk hs)
  · show donePart (completeRx p r) s = _
    rw [donePart, (hplain ht hf hp).trans (if_pos ⟨hsoft, hbyte⟩), receiveFlow, Part.modPort_eq,
      Part.port_setPort_self, Part.setPort_setPort, done]
    rfl
  · rw [(hplain ht hf hp).trans (if_neg hn), hover, ← herrors, if_neg hf, if_neg hp]
    simp only [BitVec.or_self, BitVec.ofNat_eq_ofNat, BitVec.or_zero]
    exact honly (receiveGood_overruns (y := y) hs)

end Sys2Proof.Machine
end

section
namespace Sys2Proof.Machine
open Sys2Proof.Claims

/-! ### The entries that an image holds (R39 to R43, R183) -/

/-- An entry whose derived fields are those of its rate and format, and whose pause can stay off with an empty account. -/
structure Profile.Loadable (e : Profile) : Prop where
  derived : e.withDerived = e
  pauseOn : 0 < e.pauseOn

/-- The derived fields of an entry, written out (R39 to R41). -/
theorem Profile.Loadable.fields {e : Profile} (h : e.Loadable) :
    e.d8 = max 8 (min ((29491200 + e.rate) / (2 * e.rate)) 524287) ∧ e.achieved = 14745600 / e.d8 ∧
    e.rateError = Int.tdiv ((14745600 - (e.rate : Int) * (e.d8 : Int)) * 1000000) ((e.rate : Int) * (e.d8 : Int)) ∧
    e.charBits = 1 + e.dataBits + (if e.parity = .even ∨ e.parity = .odd then 1 else 0) + e.stopBits := by
  have hd : d8Of e.rate = e.d8 := congrArg Profile.d8 h.derived
  have ha : achievedOf e.rate = e.achieved := congrArg Profile.achieved h.derived
  have hr : rateErrorOf e.rate = e.rateError := congrArg Profile.rateError h.derived
  have hc : charBitsOf e.dataBits e.parity e.stopBits = e.charBits := congrArg Profile.charBits h.derived
  refine ⟨hd.symm, ?_, ?_, ?_⟩
  · rw [← ha, achievedOf, hd]
  · rw [← hr, rateErrorOf, hd, Nat.cast_mul]
  · rw [← hc, charBitsOf]
    cases e.parity <;> rfl

theorem Profile.default_loadable : Profile.default.Loadable := ⟨rfl, by decide⟩

theorem of_guard_eq_some {c : Prop} [Decidable c] {u : Unit} (h : (guard c : Option Unit) = some u) : c := by
  by_contra hc
  simp [guard, hc] at h

theorem Profile.ofBytes_loadable {r : List Byte} {e : Profile} {adjusted : Bool} (h : Profile.ofBytes r = some (e, adjusted)) :
    e.Loadable := by
  unfold Profile.ofBytes at h
  iterate 16 obtain ⟨_, -, h⟩ := Option.bind_eq_some_iff.1 h
  obtain ⟨_, hpause, h⟩ := Option.bind_eq_some_iff.1 h
  iterate 7 obtain ⟨_, -, h⟩ := Option.bind_eq_some_iff.1 h
  obtain ⟨rfl, -⟩ := Prod.mk.inj (Option.some.inj h)
  exact ⟨rfl, (of_guard_eq_some hpause).1⟩

theorem profilesOfImage_loadable {records : List (List Byte)} {l : List Profile} (h : profilesOfImage records = some l) :
    ∀ e ∈ l, e.Loadable := by
  unfold profilesOfImage at h
  induction records generalizing l with
  | nil =>
    obtain rfl := Option.some.inj h
    simp
  | cons r rest ih =>
    rw [List.mapM_cons] at h
    obtain ⟨e, he, h⟩ := Option.bind_eq_some_iff.1 h
    obtain ⟨tail, htail, h⟩ := Option.bind_eq_some_iff.1 h
    obtain rfl := Option.some.inj h
    obtain ⟨read, hread, rfl⟩ := Option.map_eq_some_iff.1 he
    exact List.forall_mem_cons.2 ⟨Profile.ofBytes_loadable hread, ih htail⟩

theorem tableOf_get {α : Type} (n : Nat) (l : List α) (d : α) (i : Fin n) : (tableOf n l d)[i] = l.getD i d := by
  simp [tableOf]

theorem loadImage_loadable {l : List Byte} {t : Tables} (h : loadImage l = some t) (p : PortNo) : (t.profiles[p]).Loadable := by
  unfold loadImage at h
  iterate 6 obtain ⟨_, -, h⟩ := Option.bind_eq_some_iff.1 h
  obtain ⟨profiles, hprofiles, h⟩ := Option.bind_eq_some_iff.1 h
  obtain ⟨_, -, h⟩ := Option.bind_eq_some_iff.1 h
  obtain rfl := Option.some.inj h
  show ((tableOf 48 profiles Profile.default)[p]).Loadable
  rw [tableOf_get, List.getD_eq_getElem?_getD]
  cases hp : profiles[p.val]? with
  | none => exact Profile.default_loadable
  | some e => exact profilesOfImage_loadable hprofiles e (List.mem_of_getElem? hp)

end Sys2Proof.Machine
end

section
namespace Sys2Proof.Machine
open Sys2Proof.Claims

/-! ### Every port starts (R20, R60, R169) -/

/-- A port that starts with no presence asserted and an empty account, as every port does at power-on (R56, R65). -/
structure Port.AtRest (x : Port) : Prop where
  absent : x.dsrDebounced = false
  empty : x.portUse < x.profile.pauseOn

/-- The port once the part is up: started if its entry is enabled (R60). -/
def Port.up (x : Port) : Port := if x.profile.enabled then started x else x

theorem evalPause_stands {p : PortNo} {s : Part} (h : (s.port p).engine.pause = .released)
    (hu : (s.port p).portUse < (s.port p).profile.pauseOn) : evalPause p s = s := by
  unfold evalPause
  simp only [h, if_neg (Nat.not_le.2 hu), ite_self]

/-- The lines of a port that starts are those of an engine at its starting values (R20, R169). -/
theorem Port.refreshLines_started {x : Port} (h : x.dsrDebounced = false) :
    Port.refreshLines { x with portState := .active, engine := .initial } = started x := by
  have habsent : ¬(x.profile.presenceSource = .dsr ∧ x.dsrDebounced = true) := by simp [h]
  refine (Port.refreshLines_eq rfl).trans ?_
  unfold started linesOf
  simp only [if_neg habsent, Engine.initial, reduceCtorEq, and_false, if_false]
  rfl

theorem startPort_atRest {p : PortNo} {s : Part} (h : (s.port p).AtRest) : startPort p s = s.setPort p (started (s.port p)) := by
  have habsent : (s.port p).presence = false := by simp [Port.presence, h.absent]
  have hlines := Port.refreshLines_started h.absent
  unfold startPort startEngine
  rw [habsent, if_neg Bool.false_ne_true, Part.modPort_modPort, Part.modPort_eq, hlines]
  refine evalPause_stands ?_ ?_ <;> rw [Part.port_setPort_self]
  · rfl
  · exact h.empty

theorem startEnabled_atRest {p : PortNo} {s : Part} (h : (s.port p).AtRest) : startEnabled s p = s.setPort p (s.port p).up := by
  unfold startEnabled Port.up
  split_ifs
  · exact startPort_atRest h
  · rw [Part.setPort_port_self]

/-- Starting the ports of a list changes those ports alone, each for itself. -/
theorem foldl_startEnabled (l : List PortNo) (hl : l.Nodup) {s : Part} (h : ∀ p ∈ l, (s.port p).AtRest) :
    (∃ ports, l.foldl startEnabled s = { s with ports }) ∧
    ∀ q, (l.foldl startEnabled s).port q = if q ∈ l then (s.port q).up else s.port q := by
  induction l generalizing s with
  | nil => exact ⟨⟨s.ports, rfl⟩, fun q => by simp⟩
  | cons p rest ih =>
    obtain ⟨hp, hrest⟩ := List.nodup_cons.1 hl
    have hne (q : PortNo) (hq : q ∈ rest) : (s.setPort p (s.port p).up).port q = s.port q :=
      Part.port_setPort_ne s p q _ fun e => hp (e ▸ hq)
    rw [List.foldl_cons, startEnabled_atRest (h p List.mem_cons_self)]
    obtain ⟨⟨ports, hports⟩, hport⟩ := ih hrest fun q hq => by
      rw [hne q hq]
      exact h q (List.mem_cons_of_mem p hq)
    refine ⟨⟨ports, hports⟩, fun q => ?_⟩
    rw [hport q]
    by_cases hq : q = p
    · subst hq
      rw [if_neg hp, if_pos List.mem_cons_self, Part.port_setPort_self]
    · rw [Part.port_setPort_ne s p q _ (Ne.symm hq)]
      simp only [List.mem_cons, hq, false_or]

/-! ### What start-up loads (R60, R183, R184) -/

/-- The tables and the image state that start-up takes from what was read. -/
inductive Takes (address : BitVec 4) : Option Tables → Tables → ImageState → Prop
  | image (t : Tables) : Takes address (some t) t .valid
  | none : Takes address none (.withoutImage address) .noImage

/-- What start-up reads as the image: nothing where a SAVE was interrupted (R184, R185; log 26). -/
def Part.imageRead (s : Part) (a : FlashAnswer) : Option (List Byte) :=
  if s.imageState = .saving then none else readFlash a s.flash

/-- What the flash holds after start-up (log 26). -/
def Part.flashAfter (s : Part) (a : FlashAnswer) : Option (List Byte) := if a = .silent then s.flashHeld else s.imageRead a

theorem startUp_eq (strap : Bool) (address : BitVec 4) (a : FlashAnswer) (s : Part) : ∃ t image,
    Takes address ((s.imageRead a).bind loadImage) t image ∧
    startUp strap address a s = allPorts.foldl startEnabled (loadedPart strap address t image (s.flashAfter a) s.ports) := by
  unfold startUp Part.flashAfter Part.imageRead
  dsimp only
  cases (if s.imageState = .saving then none else readFlash a s.flash).bind loadImage with
  | none => exact ⟨_, _, .none, Eq.refl _⟩
  | some t => exact ⟨_, _, .image t, Eq.refl _⟩

theorem loadedPart_port (strap : Bool) (address : BitVec 4) (t : Tables) (image : ImageState) (flash : Option (List Byte))
    (ports : Vector Port 48) (p : PortNo) :
    (loadedPart strap address t image flash ports).port p = Port.poweredOn t.profiles[p] (ports[p]).pins := by
  simp [loadedPart, Part.port, poweredPorts]

theorem commissioningNow_eq (s : Part) : s.commissioningNow =
    (s.commissioningStrap && !allPeers.any fun j => (s.peer j).valid && (s.peer j).configure) := by
  have hpeers : s.peers.toList = allPeers.map s.peer := List.ext_getElem (by simp [allPeers]) (by simp [allPeers, Part.peer])
  rw [Part.commissioningNow, hpeers, List.any_map]
  rfl

theorem Takes.loadable {address : BitVec 4} {read : Option (List Byte)} {t : Tables} {image : ImageState}
    (h : Takes address (read.bind loadImage) t image) (p : PortNo) : (t.profiles[p]).Loadable := by
  generalize hr : read.bind loadImage = o at h
  cases h with
  | image t =>
    obtain ⟨l, -, hl⟩ := Option.bind_eq_some_iff.1 hr
    exact loadImage_loadable hl p
  | none =>
    have : (Tables.withoutImage address).profiles[p] = .default := by simp [Tables.withoutImage]
    rw [this]
    exact Profile.default_loadable

theorem station_eq (address : BitVec 4) :
    (0x024E4B000000#48 ||| address.zeroExtend 48) = 0x024E4B000000 + address.zeroExtend 48 := by
  revert address
  decide

/-- The part once it is up: the loaded part, its ports up (R60, R184). -/
theorem startUp_up (strap : Bool) (address : BitVec 4) (a : FlashAnswer) (s : Part) : ∃ t image ports,
    Takes address ((s.imageRead a).bind loadImage) t image ∧ (∀ p : PortNo, (t.profiles[p]).Loadable) ∧
    startUp strap address a s = { loadedPart strap address t image (s.flashAfter a) s.ports with ports } ∧
    ∀ p : PortNo, (startUp strap address a s).port p = (Port.poweredOn t.profiles[p] (s.port p).pins).up := by
  obtain ⟨t, image, htakes, e⟩ := startUp_eq strap address a s
  have hrest (p : PortNo) : (Port.poweredOn t.profiles[p] (s.port p).pins).AtRest := ⟨rfl, (htakes.loadable p).pauseOn⟩
  obtain ⟨⟨ports, hports⟩, hup⟩ := foldl_startEnabled allPorts (List.nodup_finRange 48)
    (s := loadedPart strap address t image (s.flashAfter a) s.ports) fun p _ => by
      rw [loadedPart_port]
      exact hrest p
  have hall (p : PortNo) : p ∈ allPorts := List.mem_finRange p
  refine ⟨t, image, ports, htakes, htakes.loadable, e.trans hports, fun p => ?_⟩
  rw [e, hup p, if_pos (hall p), loadedPart_port]
  rfl

theorem loadedPart_commissioning (strap : Bool) (address : BitVec 4) (t : Tables) (image : ImageState)
    (flash : Option (List Byte)) (ports : Vector Port 48) : (loadedPart strap address t image flash ports).commissioning =
      (strap && !allPeers.any fun j => (t.peers[j]).valid && (t.peers[j]).configure) :=
  commissioningNow_eq _

theorem loadedPart_freeList (strap : Bool) (address : BitVec 4) (t : Tables) (image : ImageState) (flash : Option (List Byte))
    (ports : Vector Port 48) : (loadedPart strap address t image flash ports).freeList = List.range Config.cellCount := by
  unfold loadedPart Part.initial
  dsimp only

/-- The flash keeps what it held, takes what was read, or holds no image where a SAVE was interrupted (log 26). -/
theorem Part.flashAfter_eq (s : Part) (a : FlashAnswer) : s.flashAfter a =
    (if s.imageState = .saving then none else match a with | .bytes l => some l | .stored => s.flash | .silent => s.flash) := by
  unfold Part.flashAfter Part.flashHeld Part.imageRead
  cases a <;> rfl

/-- Settles O46, by the tables that start-up takes and by each port's own start. -/
theorem startUpTakesImageOrDefaults : Obligations.StartUpTakesImageOrDefaults := by
  unfold Obligations.StartUpTakesImageOrDefaults
  intro s strap address a i hi read image
  have hexec : exec i s = .next (settle (startUpState strap address a s)) := by
    rcases hi with rfl | rfl <;> rfl
  obtain ⟨t, state, ports, htakes, hload, hpart, hport⟩ := startUp_up strap address a s.part
  have himage : (s.part.imageRead a).bind loadImage = image := by
    by_cases hs : s.part.imageState = .saving
    · rw [Part.imageRead, if_pos hs]
      exact (if_pos hs).symm
    · rw [Part.imageRead, if_neg hs]
      exact (if_neg hs).symm
  have hprofile (p : PortNo) : ((startUp strap address a s.part).port p).profile = t.profiles[p] := by
    rw [hport p, Port.up]
    split_ifs <;> rfl
  have htaps : (startUp strap address a s.part).taps = mapTable t.taps fun e => { entry := e, counters := .zero } :=
    congrArg Part.taps hpart
  have htap (j : TapNo) : (startUp strap address a s.part).tap j = { entry := t.taps[j], counters := .zero } := by
    rw [Part.tap, htaps]
    exact mapTable_get t.taps _ j
  rw [himage] at htakes
  refine ⟨startUpState strap address a s, hexec, ⟨rfl, rfl⟩, ⟨?_, ?_, ?_⟩, fun t' h => ?_, fun h => ?_, fun p => ?_, ?_, ?_,
    fun p => ?_⟩
  · exact congrArg Part.commissioningStrap hpart
  · exact congrArg Part.addressStraps hpart
  · show (startUp strap address a s.part).commissioning = (strap && !allPeers.any fun j =>
      ((startUp strap address a s.part).peer j).valid && ((startUp strap address a s.part).peer j).configure)
    rw [hpart]
    exact loadedPart_commissioning strap address t state (s.part.flashAfter a) s.part.ports
  · rw [h] at htakes
    cases htakes
    exact ⟨congrArg Part.imageState hpart, congrArg Part.system hpart, congrArg Part.peers hpart, congrArg Part.triggers hpart,
      hprofile, htap⟩
  · rw [h] at htakes
    cases htakes
    refine ⟨congrArg Part.imageState hpart, (congrArg Part.system hpart).trans ?_, fun j => ?_, fun j => ?_, fun j => ?_, fun p => ?_⟩
    · exact congrArg (SystemRecord.mk · 1250 15180 none) (station_eq address)
    · exact (congrArg (·[j]) (congrArg Part.peers hpart)).trans (Vector.getElem_replicate j.isLt)
    · exact (congrArg (·[j]) (congrArg Part.triggers hpart)).trans (Vector.getElem_replicate j.isLt)
    · exact (htap j).trans (congrArg (Tap.mk · .zero) (Vector.getElem_replicate j.isLt))
    · exact (hprofile p).trans (Vector.getElem_replicate p.isLt)
  · have hfields := (hload p).fields
    rw [← hprofile p] at hfields
    exact hfields
  · have hfree : (startUp strap address a s.part).freeList = List.range Config.cellCount := by
      rw [hpart, loadedPart_freeList]
    refine ⟨fun j => ?_, congrArg Part.formed hpart, fun n => ?_, fun q => ?_, congrArg Part.notices hpart,
      congrArg Part.noticesLost hpart, congrArg Part.transmission hpart, congrArg Part.mem hpart, hfree,
      congrArg Part.blocks hpart, congrArg Part.tapUse hpart, congrArg Part.waitList hpart, congrArg Part.walkDue hpart,
      congrArg Part.lastServed hpart, congrArg Part.curQueue hpart, congrArg Part.framesLeft hpart,
      congrArg Part.lastControl hpart, congrArg Part.chosen hpart, congrArg Part.save hpart⟩
    · exact (congrArg (·[j]) (congrArg Part.slots hpart)).trans (Vector.getElem_replicate j.isLt)
    · exact (congrArg (·[n]) (congrArg Part.sessions hpart)).trans (Vector.getElem_replicate n.isLt)
    · exact (congrArg (·[q]) (congrArg Part.queues hpart)).trans (Vector.getElem_replicate q.isLt)
  · exact (congrArg Part.flash hpart).trans (s.part.flashAfter_eq a)
  · intro e pins stopped
    have he : e = t.profiles[p] := hprofile p
    have hstopped : stopped = Port.poweredOn t.profiles[p] pins := by
      rw [← he]
      rfl
    rw [hstopped, he]
    exact hport p

end Sys2Proof.Machine
end

section
namespace Sys2Proof.Machine
open Sys2Proof.Claims

/-! ### A request that passes the Decoder is carried out and answered (R4 to R7, R14) -/

/-- The state once the frame has left the Receive FIFO, the part as given. -/
def State.taken (s : State) (v : Part) : State :=
  { s with uplink := { s.uplink with rxFifo := s.uplink.rxFifo.tail }, part := v }

theorem touchNamed_setSlot (u : SessionUse) (c : Request) (s : Part) (k : SlotNo) (x : Slot) :
    touchNamed u c (s.setSlot k x) = { touchNamed u c s with slots := s.slots.set k x } := by
  unfold touchNamed
  split <;> rfl

/-- A request that passes is carried out on the part whose slot it has claimed (R4, R7). -/
theorem takePartRequest_passes {s : State} {r : RequestRow} {f : RelayFrame} {k : SlotNo} {c : Request}
    (carry : Request → Part → Part) (h : Passes s r f k c) :
    takePartRequest r carry s = s.taken (carry c (claimed s r f k c)) := by
  rw [takePartRequest_eq, takeRequest]
  simp only [h.taken, h.row, if_true, h.peer, claim_refusal, h.checks]
  rw [State.claim, touchNamed_setSlot]
  rfl

/-- A row that names no session claims its slot and does nothing more (R5). -/
theorem claimed_eq {s : State} {r : RequestRow} (f : RelayFrame) (k : SlotNo) (c : Request) (h : r.session = .ignored) :
    claimed s r f k c = s.part.setSlot k (.reserved f.header) := by
  simp only [claimed, begun, h, touchNamed, sessionChecked]
  rfl

/-- The part on which slot `k`, reserved for the request, holds its formed reply (R14). -/
def Part.replied (v : Part) (f : RelayFrame) (k : SlotNo) (code : ResultCode) (data : List Byte) : Part :=
  { v with slots := v.slots.set k (.formed f.header code data), formed := v.formed ++ [k] }

theorem passes_answer {s : State} {r : RequestRow} {f : RelayFrame} {k : SlotNo} {c : Request} (h : Passes s r f k c)
    {v : Part} (hv : v.slot k = .reserved f.header) (code : ResultCode) (data : List Byte) :
    answer c code data v = v.replied f k code data := by
  obtain ⟨rfl, -, -⟩ := openRequest_fields h.peer
  exact answer_reserved code data hv

/-- Nothing but the claim has touched the Reply Queue of the part (R14). -/
structure ClaimStands (s : State) (f : RelayFrame) (k : SlotNo) (v : Part) : Prop where
  slots : v.slots = s.part.slots.set k (.reserved f.header)
  formed : v.formed = s.part.formed

theorem claimed_stands (s : State) (r : RequestRow) (f : RelayFrame) (k : SlotNo) (c : Request) :
    ClaimStands s f k (claimed s r f k c) :=
  ⟨rfl, (show (begun s r c).formed = s.part.formed by unfold begun touchNamed; split <;> rfl)⟩

theorem ClaimStands.reserved {s : State} {f : RelayFrame} {k : SlotNo} {v : Part} (h : ClaimStands s f k v) :
    v.slot k = .reserved f.header := Part.slot_of_set_self h.slots

/-- The reply of a request whose claim stands (R14). -/
theorem ClaimStands.replies {s : State} {f : RelayFrame} {k : SlotNo} {v : Part} (h : ClaimStands s f k v)
    (code : ResultCode) (data : List Byte) : Replies s (s.taken (v.replied f k code data)) f k code data where
  pending := rfl
  uplink := rfl
  slot := Part.slot_of_set_self (s := v) (t := v.replied f k code data) rfl
  others _ hj := (Part.slot_of_set (s := v) (t := v.replied f k code data) rfl hj).trans (Part.slot_of_set h.slots hj)
  formed := congrArg (· ++ [k]) h.formed

theorem ClaimStands.reserves {s : State} {f : RelayFrame} {k : SlotNo} {v : Part} (h : ClaimStands s f k v) :
    Reserves s (s.taken v) f k where
  pending := rfl
  uplink := rfl
  slot := h.reserved
  others _ hj := Part.slot_of_set h.slots hj
  formed := h.formed

/-- A request whose carrying out ends in an answer, the part else as given, answers so. -/
theorem passes_answers {s : State} {r : RequestRow} {f : RelayFrame} {k : SlotNo} {c : Request} (h : Passes s r f k c)
    {i : Instr} {carry : Request → Part → Part} (hi : exec i s = done (takePartRequest r carry s)) {code : ResultCode}
    {data : List Byte} {e v : Part} (hv : ClaimStands s f k v) (hc : carry c (claimed s r f k c) = answer c code data v)
    (he : { v with slots := e.slots, formed := e.formed } = e) : Answers i s f k code data e := by
  refine ⟨s.taken (v.replied f k code data), ?_, hv.replies code data, ?_⟩
  · rw [hi, takePartRequest_passes carry h, hc, passes_answer h hv.reserved, done]
  · show v.replied f k code data = _
    rw [← he]
    rfl

/-- A request of a row that names no session, refused, changes nothing but the Reply Queue. -/
theorem passes_refuses {s : State} {r : RequestRow} {f : RelayFrame} {k : SlotNo} {c : Request} (h : Passes s r f k c)
    {i : Instr} {carry : Request → Part → Part} (hi : exec i s = done (takePartRequest r carry s)) {code : ResultCode}
    {data : List Byte} (hr : r.session = .ignored)
    (hc : carry c (s.part.setSlot k (.reserved f.header)) = Machine.answer c code data (s.part.setSlot k (.reserved f.header))) :
    Answers i s f k code data s.part := by
  rw [← claimed_eq f k c hr] at hc
  refine passes_answers h hi (claimed_stands s r f k c) hc ?_
  rw [claimed_eq f k c hr]
  rfl

/-! ### The port a body names (R189) -/

theorem Request.portGiven_of {c : Request} {p : PortNo} {j : Nat} (h : c.byte j = p.val) : c.portGiven j = true := by
  simp [Request.portGiven, h]

theorem Request.portGiven_above {c : Request} {j : Nat} (h : 48 ≤ c.byte j) : c.portGiven j = false := by
  simp [Request.portGiven, Nat.not_lt.2 h]

theorem Request.port_of {c : Request} {p : PortNo} {j : Nat} (h : c.byte j = p.val) : c.port j = p := by
  unfold Request.port
  rw [h]
  exact Fin.ofNat_val_eq_self p

end Sys2Proof.Machine
end

section
namespace Sys2Proof.Machine
open Sys2Proof.Claims

/-! ### One millisecond (log 1) -/

theorem Signal.tick_eq (g : Signal) :
    g.tick = if g.phase = .space ∨ g.phase = .on then { g with elapsed := min g.duration (g.elapsed + 1) } else g := by
  unfold Signal.tick
  cases g.phase <;> simp

/-- Settles O2, each table entry by its own tick. -/
theorem emptyQueueIsOneMillisecond : Obligations.EmptyQueueIsOneMillisecond := by
  unfold Obligations.EmptyQueueIsOneMillisecond
  intro s hs
  refine ⟨idleTick s, ?_, hs, rfl, fun p => ?_, fun n => ?_, rfl⟩
  · rw [step, hs]
  · refine (mapTable_get s.part.ports Port.tick p).trans ?_
    rw [← funext Signal.tick_eq]
    rfl
  · exact mapTable_get s.part.sessions Session.tick n

/-! ### RESUME (R59) -/

theorem Port.presence_iff (x : Port) : x.presence = true ↔ x.profile.presenceSource = .dsr ∧ x.dsrDebounced = true := by
  simp [Port.presence]

/-- The OWN right: the port in the mask and a max role of OWN or TAKE (R8). -/
theorem Request.mayOwn_iff (c : Request) (p : PortNo) :
    c.mayOwn p = true ↔ c.mask.getLsbD p.val = true ∧ (c.maxRole = .own ∨ c.maxRole = .take) := by
  unfold Request.mayOwn Request.mayUse
  cases c.maxRole <;> simp

/-- Settles O36, check by check of `resumeRefusal`. -/
theorem resumeReturnsToActive : Obligations.ResumeReturnsToActive := by
  unfold Obligations.ResumeReturnsToActive
  intro s f k c h
  refine ⟨fun hbyte => ?_, fun p hp => ?_⟩
  · refine passes_refuses h rfl rfl ?_
    simp only [carryResume, resumeRefusal, Request.portGiven_above hbyte, if_true]
  intro x own present
  have hport : c.port 0 = p := Request.port_of hp
  have hx : ((s.part.setSlot k (.reserved f.header)).port p) = x := rfl
  have howns : own ↔ ¬(c.configure = false ∧ c.mayOwn p = false) := by
    show c.configure = true ∨ (_ ∧ _) ↔ _
    rw [← Request.mayOwn_iff]
    cases c.configure <;> cases c.mayOwn p <;> decide
  have hpresent : x.presence = true ↔ present := x.presence_iff
  have hrefusal : resumeRefusal c (s.part.setSlot k (.reserved f.header)) =
      if ¬own then some .noRight else if x.portState ≠ .localHold then some .badState
      else if x.pendingLoad ≠ none then some .busy else if present then some .localPresence else none := by
    simp only [resumeRefusal, Request.portGiven_of hp, Bool.true_eq_false, if_false, hport, hx, howns, not_not, hpresent]
  have refuses (code : ResultCode) (hc : resumeRefusal c (s.part.setSlot k (.reserved f.header)) = some code) :
      Answers .resume s f k code [] s.part := by
    refine passes_refuses h (carry := carryResume) rfl rfl ?_
    rw [carryResume, hc]
  refine ⟨fun ho => refuses _ ?_, fun ho hs => refuses _ ?_, fun ho hs hl => refuses _ ?_, fun ho hs hl hd => refuses _ ?_,
    fun ho hs hl hd => ?_⟩
  · rw [hrefusal, if_pos ho]
  · rw [hrefusal, if_neg (not_not.2 ho), if_pos hs]
  · rw [hrefusal, if_neg (not_not.2 ho), if_neg (not_not.2 hs), if_pos hl]
  · rw [hrefusal, if_neg (not_not.2 ho), if_neg (not_not.2 hs), if_neg (not_not.2 hl), if_pos hd]
  · have hnone : resumeRefusal c (s.part.setSlot k (.reserved f.header)) = none := by
      rw [hrefusal, if_neg (not_not.2 ho), if_neg (not_not.2 hs), if_neg (not_not.2 hl), if_neg hd]
    refine passes_answers h (carry := carryResume) (v := (s.part.setSlot k (.reserved f.header)).setPort p { x with portState := .active })
      rfl ⟨rfl, rfl⟩ ?_ rfl
    rw [claimed_eq f k c rfl, carryResume, hnone, hport]
    rfl

end Sys2Proof.Machine
end

section
namespace Sys2Proof.Machine
open Sys2Proof.Claims

/-! ### A port starts (R20, R21, R53, R56, R169) -/

/-- The port that leaves DISABLED, its engine still to start: LOCAL_HOLD with LOCAL set under presence, else ACTIVE (R53, R56). -/
def Port.entered (x : Port) : Port :=
  if x.presence then { x with portState := .localHold }.withCondition .localPresence else { x with portState := .active }

theorem Port.entered_starts (x : Port) : Port.refreshLines { x.entered with engine := .initial } = started x := by
  have hp := x.presence_iff
  unfold Port.entered started
  by_cases h : x.presence = true
  · rw [if_pos h, Port.refreshLines_eq rfl]
    simp only [← hp, h, if_true, linesOf, Engine.initial, reduceCtorEq, and_false, if_false]
    rfl
  · rw [if_neg h, Port.refreshLines_eq rfl]
    simp only [← hp, h, if_false, linesOf, Engine.initial, reduceCtorEq, and_false]
    rfl

theorem startEngine_same (p : PortNo) (s : Part) :
    SameButNotices (s.modPort p fun x => paused (Port.refreshLines { x with engine := .initial })) (startEngine p s) := by
  have h := evalPause_same p (s.modPort p fun x => Port.refreshLines { x with engine := .initial })
  rwa [Part.modPort_modPort] at h

/-- Starting a port does to it what `started` says and evaluates its pause; beyond the port only notices may change (R21, R53). -/
theorem startPort_same (p : PortNo) (s : Part) : SameButNotices (s.modPort p fun x => paused (started x)) (startPort p s) := by
  have entered : ∃ t, SameButNotices (s.modPort p Port.entered) t ∧ startPort p s = startEngine p t := by
    unfold startPort
    by_cases hp : (s.port p).presence = true
    · rw [if_pos hp]
      refine ⟨_, ?_, rfl⟩
      have h := setCondition_same p .localPresence (s.modPort p fun x => { x with portState := .localHold })
      rw [Part.modPort_modPort] at h
      rw [Part.modPort_eq, Port.entered, if_pos hp]
      exact h
    · rw [if_neg hp]
      refine ⟨_, ?_, rfl⟩
      rw [Part.modPort_eq, Port.entered, if_neg hp]
      exact .refl _
  obtain ⟨t, ht, e⟩ := entered
  rw [e]
  have h := ht.modPort p fun x => paused (Port.refreshLines { x with engine := .initial })
  rw [Part.modPort_modPort] at h
  simp only [Port.entered_starts] at h
  exact h.trans (startEngine_same p t)

/-! ### PORT_CONTROL (R53) -/

theorem portControl_above {c : Request} {g : PortNo → Part → Part} {v : Part} (h : 48 ≤ c.byte 0) :
    portControl c g v = answer c .badValue [] v := by
  rw [portControl, Request.portGiven_above h]
  rfl

theorem portControl_at {c : Request} {p : PortNo} (g : PortNo → Part → Part) (v : Part) (h : c.byte 0 = p.val) :
    portControl c g v = answer c .ok (portControlData p (g p v)) (g p v) := by
  rw [portControl, Request.portGiven_of h, Request.port_of h]
  rfl

theorem SameButNotices.claimStands {s : State} {f : RelayFrame} {k : SlotNo} {v w : Part} (a : SameButNotices v w)
    (h : ClaimStands s f k v) : ClaimStands s f k w := ⟨a.slots.trans h.slots, a.formed.trans h.formed⟩

/-- Settles O32, by what starting a port does. -/
theorem enableStartsANewRun : Obligations.EnableStartsANewRun := by
  unfold Obligations.EnableStartsANewRun
  intro s f k c h
  refine ⟨fun hbyte => ?_, fun p hp => ⟨fun hrun => ?_, fun hstop => ?_⟩⟩
  · refine passes_refuses h (carry := carryEnable) rfl rfl ?_
    rw [carryEnable, Request.portGiven_above hbyte, portControl_above hbyte]
    rfl
  · refine passes_refuses h (carry := carryEnable) rfl rfl ?_
    rw [carryEnable, Request.portGiven_of hp, Request.port_of hp]
    exact if_pos ((Port.running_iff _).2 hrun)
  · let v := s.part.setSlot k (.reserved f.header)
    have hcarry : carryEnable c v = answer c .ok (portControlData p (enablePort p v)) (enablePort p v) := by
      rw [carryEnable, Request.portGiven_of hp, Request.port_of hp, portControl_at _ _ hp]
      exact if_neg (by rw [Bool.true_and, Port.running_iff]; exact not_not.2 hstop)
    have same : SameButNotices (v.modPort p fun x => paused (started x.newRun)) (enablePort p v) := by
      have h := startPort_same p (v.modPort p Port.newRun)
      rwa [Part.modPort_modPort] at h
    have hstands : ClaimStands s f k (enablePort p v) := same.claimStands ⟨rfl, rfl⟩
    have hport : (enablePort p v).port p = paused (started (s.part.port p).newRun) :=
      (same.port p).trans (Part.port_modPort_self v p _)
    have hepoch : ((enablePort p v).port p).epoch = (s.part.port p).epoch + 1 := by
      rw [hport, paused_moved]
      rfl
    refine ⟨s.taken ((enablePort p v).replied f k .ok (portControlData p (enablePort p v))), ?_, ?_, hport, fun q hq => ?_, ?_⟩
    · show done (takePartRequest (portControlRow 0) carryEnable s) = _
      rw [takePartRequest_passes carryEnable h, claimed_eq f k c rfl, hcarry, passes_answer h hstands.reserved, done]
    · rw [← hepoch]
      exact hstands.replies .ok _
    · exact (same.port q).trans (Part.port_modPort_ne v p q _ hq.symm)
    · show (enablePort p v).replied f k .ok _ = _
      rw [same.eq]
      rfl

end Sys2Proof.Machine
end

section
namespace Sys2Proof.Machine
open Sys2Proof.Claims

/-! ### LOAD PROFILE (R46 to R50) -/

/-- The accounting checks of R47 read the accounts alone. -/
theorem accountingRefusal_eq (p : PortNo) (e : Profile) (s : Part) : accountingRefusal p e s = accounting s p e := by
  unfold accountingRefusal accounting
  refine if_congr Iff.rfl rfl (if_congr Iff.rfl rfl ?_)
  rw [← ite_not]
  exact if_congr (by unfold Part.sigmaReserve Port.reserve; omega) rfl rfl

theorem carryLoadProfile_eq {c : Request} {p : PortNo} {e : Profile} {adjusted : Bool} {v : Part} (hp : c.byte 1 = p.val)
    (hi : v.imageState ≠ .saving) (he : Profile.ofBytes (c.body.drop 2) = some (e, adjusted)) :
    carryLoadProfile c v = loadProfile c p e adjusted v := by
  have hindex : ¬48 ≤ c.index := by
    have := p.isLt
    unfold Request.index
    omega
  have hload : loadRefusal c 48 v = none := by rw [loadRefusal, if_neg hi, if_neg hindex]
  have hrecord : Profile.ofBytes c.record = some (e, adjusted) := he
  rw [carryLoadProfile, hload, hrecord, ← Request.port_of hp]

/-- Settles O39, by the state of the port; a load that applies at once is one that comes to its moment. -/
theorem loadProfileStoresOrWaits : Obligations.LoadProfileStoresOrWaits := by
  unfold Obligations.LoadProfileStoresOrWaits
  intro s f k c p e adjusted h hp himage he x idle waiting
  let v := s.part.setSlot k (.reserved f.header)
  have hv : claimed s (loadRow 1 40) f k c = v := claimed_eq f k c rfl
  have hcarry : carryLoadProfile c v = loadProfile c p e adjusted v := carryLoadProfile_eq hp himage he
  have hx : v.port p = x := rfl
  have hacc : accountingRefusal p e v = accounting s.part p e := accountingRefusal_eq p e v
  have hk : c.slot = k := (openRequest_fields h.peer).1
  have refuses (code : ResultCode) (hl : loadProfile c p e adjusted v = answer c code [] v) :
      Answers .loadProfile s f k code [] s.part :=
    passes_refuses h (carry := carryLoadProfile) rfl rfl (hcarry.trans hl)
  have hexec (w : Part) (hl : loadProfile c p e adjusted v = w) : exec .loadProfile s = .next (settle (s.taken w)) := by
    show done (takePartRequest (loadRow 1 40) carryLoadProfile s) = _
    rw [takePartRequest_passes carryLoadProfile h, hv, hcarry, hl, done]
  have henter (hs : x.portState = .active) (ha : accounting s.part p e = none) :
      loadProfile c p e adjusted v = reconfigIdle p (v.setPort p waiting) := by
    simp only [loadProfile, hx, hs, hacc, ha, enterReconfig, hk]
    rfl
  have hidle : x.idle = true ↔ idle := by
    simp only [Port.idle, Bool.and_eq_true, List.isEmpty_iff, beq_iff_eq, and_assoc, idle]
  refine ⟨fun hs => refuses _ ?_, fun hs => refuses _ ?_, fun hs code ha => refuses _ ?_, fun hs ha => ?_, fun hs ha hi => ?_,
    fun hs ha hi hw => ?_⟩
  · simp only [loadProfile, hx, hs]
  · simp only [loadProfile, hx, hs]
  · rcases hs with hs | hs <;> simp only [loadProfile, hx, hs, hacc, ha]
  · refine passes_answers h (carry := carryLoadProfile) (v := storeProfile p e v) rfl ⟨rfl, rfl⟩ ?_ rfl
    rw [hv, hcarry]
    simp only [loadProfile, hx, hs, hacc, ha, loadCode, profileLoadData, Option.map_none, Option.getD_none, List.append_nil]
    rfl
  · have hwaits : reconfigIdle p (v.setPort p waiting) = v.setPort p waiting := by
      refine reconfigIdle_waits (.inr ?_)
      rw [Part.port_setPort_self]
      exact Bool.eq_false_iff.2 (mt hidle.1 hi)
    exact ⟨s.taken (v.setPort p waiting), hexec _ ((henter hs ha).trans hwaits),
      ClaimStands.reserves (v := v.setPort p waiting) ⟨rfl, rfl⟩, rfl⟩
  · have hport : (v.setPort p waiting).port p = waiting := Part.port_setPort_self v p waiting
    have hmoment : reconfigIdle p (v.setPort p waiting) = finishLoad p (v.setPort p waiting) :=
      reconfigIdle_idle (by rw [hport]) (by rw [hport]; exact hidle.2 hi) (by rw [hport]) rfl
    refine ⟨s.taken (finishLoad p (v.setPort p waiting)), hexec _ ((henter hs ha).trans hmoment), ?_, rfl, rfl⟩
    rw [hv]
    refine finishLoad_finished (by rw [hport]) hw fun _ g hg => ?_
    rw [hport] at hg
    exact absurd (hi.2.2.2.symm.trans hg) (by simp)

end Sys2Proof.Machine
end

section
namespace Sys2Proof.Machine
open Sys2Proof.Claims

/-! ### Notices offered in turn (R181) -/

/-- The notices are offered one after another. -/
def Part.offering (s : Part) (l : List Notice) : Part := l.foldl (fun s n => offerNotice n s) s

/-- What a notice says and where it goes; the lost flag is the queue's. -/
def Notice.content (m : Notice) : Address × NoticeBody := (m.dst, m.body)

theorem Part.offering_append (s : Part) (l k : List Notice) : s.offering (l ++ k) = (s.offering l).offering k :=
  List.foldl_append

/-- Two parts with the same Notice Queue take up offers alike. -/
theorem offering_congr {s t : Part} (l : List Notice) (hn : t.notices = s.notices) (hl : t.noticesLost = s.noticesLost) :
    (t.offering l).notices = (s.offering l).notices ∧ (t.offering l).noticesLost = (s.offering l).noticesLost := by
  induction l generalizing s t with
  | nil => exact ⟨hn, hl⟩
  | cons n rest ih =>
    rcases offerNotice_cases n s with ⟨h, e⟩ | ⟨h, e⟩
    · have e' := (offerNotice_cases n t).resolve_right fun h' => absurd (hn ▸ h'.1) (Nat.not_le.2 h)
      refine ih (s := offerNotice n s) (t := offerNotice n t) ?_ ?_
      · rw [e, e'.2, hn, hl]
      · rw [e, e'.2]
    · have e' := (offerNotice_cases n t).resolve_left fun h' => absurd (hn ▸ h'.1) (Nat.not_lt.2 h)
      refine ih (s := offerNotice n s) (t := offerNotice n t) ?_ ?_
      · rw [e, e'.2, hn]
      · rw [e, e'.2]

/-- The offers that find a place join the queue in their order, and unless all do, the loss shows (R181). -/
theorem offering_notices (s : Part) (l : List Notice) : ∃ more, (s.offering l).notices = s.notices ++ more ∧
    more.map Notice.content = (l.take (Config.noticePlaces - s.notices.length)).map Notice.content ∧
    (more.length = l.length ∨ (s.offering l).noticesLost = true) := by
  induction l generalizing s with
  | nil => exact ⟨[], by simp [Part.offering], by simp, .inl rfl⟩
  | cons n rest ih =>
    obtain ⟨more, hmore, hcontent, hall⟩ := ih (offerNotice n s)
    rcases offerNotice_cases n s with ⟨hroom, e⟩ | ⟨hfull, e⟩
    · refine ⟨{ n with lost := s.noticesLost } :: more, ?_, ?_, ?_⟩
      · refine hmore.trans ?_
        rw [e, List.append_assoc]
        rfl
      · have hlen : Config.noticePlaces - s.notices.length = (Config.noticePlaces - (offerNotice n s).notices.length) + 1 := by
          rw [e, List.length_append, List.length_singleton]
          omega
        rw [hlen, List.take_succ_cons, List.map_cons, List.map_cons, hcontent]
        rfl
      · exact hall.imp_left fun h => congrArg (· + 1) h
    · have hnone : Config.noticePlaces - s.notices.length = 0 := Nat.sub_eq_zero_of_le hfull
      have hstands : (offerNotice n s).notices = s.notices := by rw [e]
      rw [hstands] at hmore hcontent
      refine ⟨more, hmore, ?_, .inr ?_⟩
      · rw [hcontent, hnone]
        rfl
      · rcases hall with h | h
        · have hmoreNil : more = [] := by
            rw [hnone] at hcontent
            exact List.map_eq_nil_iff.1 hcontent
          have hrest : rest = [] := List.length_eq_zero_iff.1 (by rw [← h, hmoreNil]; rfl)
          rw [hrest]
          exact congrArg Part.noticesLost e
        · exact h

/-- Where there is room for all, none is lost that was offered. -/
theorem offering_room {s : Part} {l : List Notice} (h : s.notices.length + l.length ≤ Config.noticePlaces)
    (hl : s.noticesLost = false) : (s.offering l).noticesLost = false := by
  induction l generalizing s with
  | nil => exact hl
  | cons n rest ih =>
    rw [List.length_cons] at h
    have e : offerNotice n s = { s with notices := s.notices ++ [{ n with lost := s.noticesLost }], noticesLost := false } :=
      if_pos (by omega)
    refine ih (s := offerNotice n s) ?_ ?_ <;> rw [e]
    rw [List.length_append, List.length_singleton]
    omega

/-! ### The conditions of one port that a list of notices reports -/

/-- The conditions of port p that the notices report, in their order (R182). -/
def reported (p : PortNo) (l : List Notice) : List Condition := l.filterMap (Notice.conditionOf p)

@[simp] theorem reported_nil (p : PortNo) : reported p [] = [] := rfl
@[simp] theorem reported_append (p : PortNo) (l k : List Notice) : reported p (l ++ k) = reported p l ++ reported p k :=
  List.filterMap_append

/-- The condition that a notice reports stands in its body. -/
theorem reported_content {p : PortNo} {l k : List Notice} (h : l.map Notice.content = k.map Notice.content) :
    reported p l = reported p k := by
  have e (l : List Notice) : reported p l =
      (l.map Notice.content).filterMap fun m => Notice.conditionOf p { dst := m.1, body := m.2, lost := false, marks := none } := by
    rw [List.filterMap_map]
    rfl
  rw [e, e, h]

theorem conditions_nodup_length {l : List Condition} (h : l.Nodup) : l.length ≤ 10 := by
  have hsub : l ⊆ allConditions := fun c _ => by cases c <;> decide
  exact (h.subperm hsub).length_le

/-! ### What an operation offers about one port (R178, R179) -/

/-- The conditions of `asked` are named by port p's mask, and there is a supervisor to tell. -/
def Asks (p : PortNo) (asked : Condition → Prop) (s : Part) : Prop :=
  ∀ c, asked c → hasCondition (s.port p).profile.noticeMask c = true ∧ s.supervisor ≠ none

/-- From part `s` to part `t` the notices of `l` have been offered: they report each newly set condition of port p that is asked
for, no condition but newly set ones, and none twice; where no other port's mask names any, at most `k` are about other things. -/
structure Offers (p : PortNo) (asked : Condition → Prop) (k : Nat) (s t : Part) (l : List Notice) : Prop where
  queue : t.notices = (s.offering l).notices
  lost : t.noticesLost = (s.offering l).noticesLost
  kept : ∀ c, hasCondition (s.port p).conditions c = true → hasCondition (t.port p).conditions c = true
  own : ∀ c ∈ reported p l, hasCondition (s.port p).conditions c = false ∧ hasCondition (t.port p).conditions c = true
  once : (reported p l).Nodup
  told : ∀ c, asked c → hasCondition (s.port p).conditions c = false → hasCondition (t.port p).conditions c = true →
    c ∈ reported p l
  masks : ∀ q, q ≠ p → (t.port q).profile.noticeMask = (s.port q).profile.noticeMask
  few : (∀ q, q ≠ p → (s.port q).profile.noticeMask = 0) → l.length ≤ (reported p l).length + k

/-- The Notice Queue, the conditions of port p and the other ports' masks stand. -/
structure Unheard (p : PortNo) (s t : Part) : Prop where
  queue : t.notices = s.notices
  lost : t.noticesLost = s.noticesLost
  conditions : (t.port p).conditions = (s.port p).conditions
  masks : ∀ q, q ≠ p → (t.port q).profile.noticeMask = (s.port q).profile.noticeMask

theorem Unheard.offers {p : PortNo} {s t : Part} (h : Unheard p s t) (asked : Condition → Prop) : Offers p asked 0 s t [] where
  queue := h.queue
  lost := h.lost
  kept c hc := by rw [h.conditions]; exact hc
  own c hc := absurd hc (List.not_mem_nil)
  once := List.nodup_nil
  told c _ h1 h2 := by rw [h.conditions, h1] at h2; cases h2
  masks := h.masks
  few _ := Nat.zero_le _

theorem Offers.trans {p : PortNo} {asked : Condition → Prop} {j k : Nat} {s t u : Part} {l m : List Notice}
    (a : Offers p asked j s t l) (b : Offers p asked k t u m) : Offers p asked (j + k) s u (l ++ m) where
  queue := by rw [b.queue, Part.offering_append]; exact (offering_congr m a.queue a.lost).1
  lost := by rw [b.lost, Part.offering_append]; exact (offering_congr m a.queue a.lost).2
  kept c hc := b.kept c (a.kept c hc)
  own c hc := by
    rw [reported_append, List.mem_append] at hc
    rcases hc with hc | hc
    · exact ⟨(a.own c hc).1, b.kept c (a.own c hc).2⟩
    · refine ⟨Bool.eq_false_iff.2 fun hs => ?_, (b.own c hc).2⟩
      exact absurd ((b.own c hc).1.symm.trans (a.kept c hs)) (by simp)
  once := by
    rw [reported_append]
    refine List.nodup_append.2 ⟨a.once, b.once, fun c hc d hd e => ?_⟩
    subst e
    exact absurd ((b.own c hd).1.symm.trans (a.own c hc).2) (by simp)
  told c hM hs hu := by
    rw [reported_append, List.mem_append]
    cases ht : hasCondition (t.port p).conditions c with
    | true => exact .inl (a.told c hM hs ht)
    | false => exact .inr (b.told c hM ht hu)
  masks q hq := (b.masks q hq).trans (a.masks q hq)
  few hm := by
    have h1 := a.few hm
    have h2 := b.few fun q hq => (a.masks q hq).trans (hm q hq)
    rw [reported_append, List.length_append, List.length_append]
    omega

theorem Offers.then {p : PortNo} {asked : Condition → Prop} {k : Nat} {s t u : Part} {l : List Notice}
    (a : Offers p asked k s t l) (b : Unheard p t u) : Offers p asked k s u l := by
  have h := a.trans (b.offers asked)
  rwa [List.append_nil] at h

theorem Offers.after {p : PortNo} {asked : Condition → Prop} {k : Nat} {s t u : Part} {l : List Notice}
    (a : Unheard p s t) (b : Offers p asked k t u l) : Offers p asked k s u l := by
  have h := (a.offers asked).trans b
  rwa [Nat.zero_add] at h

theorem Unheard.refl (p : PortNo) (s : Part) : Unheard p s s := ⟨rfl, rfl, rfl, fun _ _ => rfl⟩

/-- An update of one port that leaves its conditions and its mask alone goes unheard. -/
theorem Unheard.modPort (p q : PortNo) (s : Part) {f : Port → Port} (hc : (f (s.port q)).conditions = (s.port q).conditions)
    (hm : q ≠ p → (f (s.port q)).profile.noticeMask = (s.port q).profile.noticeMask) : Unheard p s (s.modPort q f) where
  queue := rfl
  lost := rfl
  conditions := by
    rw [Part.port_modPort]
    split_ifs with h
    · rw [hc, h]
    · rfl
  masks r hr := by
    rw [Part.port_modPort]
    split_ifs with h
    · rw [hm (h ▸ hr), h]
    · rfl

theorem Port.load_profile (x : Port) : x.load.profile = x.profile := by rw [Port.load_eq]

/-- A notice of another port's condition, or of none, reports none of port p's. -/
theorem conditionOf_conditionNotice (p q : PortNo) (x : Port) (c : Condition) (dst : Address) :
    (conditionNotice q x c dst).conditionOf p = if q = p then some c else none := rfl

theorem hasCondition_bit_iff (c d : Condition) : hasCondition c.bit d = true ↔ c = d := by
  cases c <;> cases d <;> decide

theorem not_hasCondition_zero (c : Condition) : hasCondition 0 c = false := by cases c <;> decide

/-- Setting a condition that is set does nothing; one that is clear is set on the port, and its notice is offered when the mask
names it and there is a supervisor (R178, R179). -/
theorem setCondition_cases (q : PortNo) (c : Condition) (s : Part) :
    (hasCondition (s.port q).conditions c = true ∧ setCondition q c s = s) ∨
    (hasCondition (s.port q).conditions c = false ∧
      ¬(hasCondition (s.port q).profile.noticeMask c = true ∧ s.supervisor ≠ none) ∧
      setCondition q c s = s.modPort q (·.withCondition c)) ∨
    (hasCondition (s.port q).conditions c = false ∧ hasCondition (s.port q).profile.noticeMask c = true ∧
      ∃ dst, setCondition q c s =
        offerNotice (conditionNotice q ((s.port q).withCondition c) c dst) (s.modPort q (·.withCondition c))) := by
  cases h : hasCondition (s.port q).conditions c with
  | true => exact .inl ⟨rfl, if_pos h⟩
  | false =>
    have e : setCondition q c s = if hasCondition (s.port q).profile.noticeMask c = true then
        (match s.supervisor with
          | some dst => offerNotice (conditionNotice q ((s.port q).withCondition c) c dst) (s.modPort q (·.withCondition c))
          | none => s.modPort q (·.withCondition c))
        else s.modPort q (·.withCondition c) := if_neg (by simp [h])
    refine .inr ?_
    cases hm : hasCondition (s.port q).profile.noticeMask c with
    | false => exact .inl ⟨rfl, fun hc => Bool.false_ne_true hc.1, e.trans (if_neg (by simp [hm]))⟩
    | true =>
      rw [if_pos hm] at e
      cases hs : s.supervisor with
      | none =>
        rw [hs] at e
        exact .inl ⟨rfl, fun hc => hc.2 rfl, e⟩
      | some dst =>
        rw [hs] at e
        exact .inr ⟨rfl, rfl, dst, e⟩

/-- A port with a condition set has it, and else its old ones. -/
theorem hasCondition_modPort (p q : PortNo) (c d : Condition) (s : Part) :
    hasCondition ((s.modPort q (·.withCondition c)).port p).conditions d = true ↔
      hasCondition (s.port p).conditions d = true ∨ (q = p ∧ c = d) := by
  rw [Part.port_modPort]
  split_ifs with h
  · subst h
    rw [show ((s.port q).withCondition c).conditions = (s.port q).conditions ||| c.bit from rfl, hasCondition_or, Bool.or_eq_true,
      hasCondition_bit_iff]
    simp only [true_and]
  · simp only [h, false_and, or_false]

/-- Setting a condition of any port offers at most its notice (R178, R179). -/
theorem setCondition_offers (p q : PortNo) (c : Condition) {asked : Condition → Prop} {s : Part} (ha : Asks p asked s) :
    ∃ l, Offers p asked 0 s (setCondition q c s) l ∧ l.length ≤ 1 := by
  let s1 := s.modPort q (·.withCondition c)
  have hmasks (r : PortNo) : (s1.port r).profile.noticeMask = (s.port r).profile.noticeMask := by
    rw [Part.port_modPort]
    split_ifs with h
    · rw [← h]
      rfl
    · rfl
  have hconds (d : Condition) : hasCondition (s1.port p).conditions d = true ↔ _ := hasCondition_modPort p q c d s
  rcases setCondition_cases q c s with ⟨-, e⟩ | ⟨hc, hno, e⟩ | ⟨hc, hmask, dst, e⟩
  · exact ⟨[], by rw [e]; exact (Unheard.refl p s).offers asked, Nat.zero_le _⟩
  · refine ⟨[], ?_, Nat.zero_le _⟩
    rw [e]
    exact {
      queue := rfl
      lost := rfl
      kept := fun d hd => (hconds d).2 (.inl hd)
      own := fun d hd => absurd hd List.not_mem_nil
      once := List.nodup_nil
      told := fun d hd h1 h2 => by
        obtain ⟨rfl, rfl⟩ := ((hconds d).1 h2).resolve_left (by simp [h1])
        exact absurd (ha c hd) hno
      masks := fun r _ => hmasks r
      few := fun _ => Nat.zero_le _ }
  · let m := conditionNotice q ((s.port q).withCondition c) c dst
    have hp (r : PortNo) : (setCondition q c s).port r = s1.port r := by rw [e]; exact (offerNotice_same m s1).port r
    have hrep : reported p [m] = if q = p then [c] else [] := by
      unfold reported
      rw [List.filterMap_cons, conditionOf_conditionNotice]
      split_ifs <;> rfl
    have hq := offering_congr (s := s) (t := s1) [m] rfl rfl
    refine ⟨[m], ?_, le_refl _⟩
    exact {
      queue := by rw [e]; exact hq.1
      lost := by rw [e]; exact hq.2
      kept := fun d hd => by rw [hp]; exact (hconds d).2 (.inl hd)
      own := fun d hd => by
        rw [hrep] at hd
        split_ifs at hd with h
        · rw [List.mem_singleton] at hd
          subst hd h
          exact ⟨hc, by rw [hp]; exact (hconds d).2 (.inr ⟨rfl, rfl⟩)⟩
        · exact absurd hd List.not_mem_nil
      once := by
        rw [hrep]
        split_ifs
        · exact List.nodup_singleton c
        · exact List.nodup_nil
      told := fun d _ h1 h2 => by
        rw [hp] at h2
        obtain ⟨hqp, rfl⟩ := ((hconds d).1 h2).resolve_left (by simp [h1])
        rw [hrep, if_pos hqp]
        exact List.mem_singleton_self c
      masks := fun r _ => by rw [hp, hmasks]
      few := fun hm => by
        rw [hrep]
        by_cases h : q = p
        · rw [if_pos h]
          exact le_refl _
        · rw [hm q h] at hmask
          exact absurd ((not_hasCondition_zero c).symm.trans hmask) (by simp) }

theorem SessionFrame.supervisor {s t : Part} (h : SessionFrame s t) : t.supervisor = s.supervisor := by
  simp only [Part.supervisor, h.system, h.peer]

/-- A change that no store operation goes beyond leaves what is asked for. -/
theorem Asks.store {p : PortNo} {asked : Condition → Prop} {s t : Part} (ha : Asks p asked s) (h : QueueFrame s t) :
    Asks p asked t := fun c hc => by
  rw [(h.port p).profile, h.supervisor]
  exact ha c hc

/-- Evaluating the pause of any port offers at most its PAUSE notice (R35). -/
theorem evalPause_offers (p q : PortNo) {asked : Condition → Prop} {s : Part} (ha : Asks p asked s) :
    ∃ l, Offers p asked 0 s (evalPause q s) l := by
  have stands : ∃ l, Offers p asked 0 s s l := ⟨[], (Unheard.refl p s).offers asked⟩
  have changes (v : Pause) : ∃ l, Offers p asked 0 s (changePause q v s) l := by
    have hpause : Unheard p s (s.modPort q (·.withPause v)) := .modPort p q s rfl fun _ => rfl
    have hload (t : Part) : Unheard p t (t.modPort q Port.load) :=
      .modPort p q t (Port.load_conditions _) fun _ => by rw [Port.load_profile]
    unfold changePause
    cases v with
    | released => exact ⟨[], (hpause.offers asked).then (hload _)⟩
    | asserted =>
      obtain ⟨l, h, -⟩ := setCondition_offers p q .pause
        (ha.store (Quiet.modPort s q (·.withPause .asserted) (Port.withPause_kept _ _)).toQueueFrame)
      exact ⟨l, (Offers.after hpause h).then (hload _)⟩
  unfold evalPause
  dsimp only
  split
  · split <;> split
    · exact changes .asserted
    · exact stands
    · exact changes .released
    · exact stands
  · exact stands

/-- Freeing a block offers at most the PAUSE notice of its port (R64). -/
theorem freeBlock_offers (p : PortNo) (b : Block) {asked : Condition → Prop} {s : Part} (ha : Asks p asked s) :
    ∃ l, Offers p asked 0 s (freeBlock b s) l := by
  unfold freeBlock
  dsimp only
  split
  · refine ⟨[], (?_ : Unheard p s _).offers asked⟩
    exact ⟨rfl, rfl, rfl, fun _ _ => rfl⟩
  · let t : Part := { s with blocks := s.blocks.filter (fun c => c.id != b.id), freeList := s.freeList ++ b.cells }
    let t1 := t.modPort b.port fun x => { x with portUse := x.portUse - b.cells.length }
    have h1 : Unheard p t t1 := .modPort p b.port t rfl fun _ => rfl
    have h2 : QueueFrame t t1 := (Quiet.modPort t b.port _ (by constructor <;> first | rfl | exact Or.inl rfl)).toQueueFrame
    have h3 (due : Bool) : Unheard p s { t1 with walkDue := due } := ⟨h1.queue, h1.lost, h1.conditions, h1.masks⟩
    have h4 (due : Bool) : Asks p asked { t1 with walkDue := due } := Asks.store (s := t) (t := t1) ha h2
    obtain ⟨l, h⟩ := evalPause_offers p b.port (h4 (s.walkDue || decide (t1.sharedInUse < s.sharedInUse)))
    exact ⟨l, Offers.after (h3 _) h⟩

theorem dropHold_offers (p : PortNo) (id : Nat) {asked : Condition → Prop} {s : Part} (ha : Asks p asked s) :
    ∃ l, Offers p asked 0 s (dropHold id s) l := by
  unfold dropHold
  split
  · exact ⟨[], (Unheard.refl p s).offers asked⟩
  · split
    · exact freeBlock_offers p _ ha
    · refine ⟨[], (?_ : Unheard p s _).offers asked⟩
      exact ⟨rfl, rfl, rfl, fun _ _ => rfl⟩

theorem releaseHold_offers (p : PortNo) (id : Nat) {asked : Condition → Prop} {s : Part} (ha : Asks p asked s)
    (hw : s.waitList = []) : ∃ l, Offers p asked 0 s (releaseHold id s) l := by
  rw [releaseHold_of_none_waits id hw]
  obtain ⟨l, h⟩ := dropHold_offers p id ha
  exact ⟨l, h.then ⟨rfl, rfl, rfl, fun _ _ => rfl⟩⟩

/-- Trimming a chain offers PAUSE notices alone (R111). -/
theorem trimLoop_offers (p : PortNo) (n : Nat) {asked : Condition → Prop} {s : Part} (ha : Asks p asked s)
    (hw : s.waitList = []) : ∃ l, Offers p asked 0 s (trimLoop p n s) l := by
  induction n generalizing s with
  | zero => exact ⟨[], (Unheard.refl p s).offers asked⟩
  | succ k ih =>
    match hc : (s.port p).chain with
    | [] => exact ⟨[], by rw [trimLoop_of_within _ (by simp [Part.chainCells, hc])]; exact (Unheard.refl p s).offers asked⟩
    | id :: rest =>
      by_cases hl : (s.port p).profile.historyLimit < s.chainCells p
      · rw [trimLoop_step k hc hl]
        let t := s.modPort p fun x => { x with chain := rest }
        have ht : Unheard p s t := .modPort p p s rfl fun h => absurd rfl h
        have hta : Asks p asked t :=
          ha.store (Quiet.modPort s p _ (by constructor <;> first | rfl | exact Or.inl rfl)).toQueueFrame
        obtain ⟨l, h1⟩ := releaseHold_offers p id hta hw
        obtain ⟨m, h2⟩ := ih (hta.store (releaseHold_store id t).toQueueFrame) (releaseHold_mem (s := t) id hw).2
        exact ⟨l ++ m, (Offers.after ht h1).trans h2⟩
      · exact ⟨[], by rw [trimLoop_of_within _ (Nat.not_lt.1 hl)]; exact (Unheard.refl p s).offers asked⟩

/-! ### What local presence and an apply offer (R57, R52) -/

/-- The SESSION_EVENT notice that the demotion of port p's owner by presence offers (R57, R130). -/
def Part.ownerTold (s : Part) (p : PortNo) : List Notice :=
  match s.ownerOf p with
  | none => []
  | some n => [sessionEvent n (s.session n) .localPresence none (s.addressOf n)]

theorem Part.ownerTold_length (s : Part) (p : PortNo) : (s.ownerTold p).length ≤ 1 := by
  unfold Part.ownerTold
  cases s.ownerOf p <;> simp

theorem retried_conditions (x : Port) : (retried x).conditions = x.conditions := by unfold retried; split <;> rfl
theorem retried_profile (x : Port) : (retried x).profile = x.profile := by unfold retried; split <;> rfl

/-- Presence demotes the owner of port p, if it has one (R57). -/
def demoteOwner (p : PortNo) (s : Part) : Part :=
  match s.ownerOf p with
  | some n => demote n .localPresence none s
  | none => s

theorem demoteOwner_demoted (p : PortNo) (s : Part) : SameButNotices (s.ownerDemoted p) (demoteOwner p s) :=
  demoteOwner_same p .localPresence none s

theorem enterLocalHold_eq (p : PortNo) (s : Part) : enterLocalHold p s = setCondition p .localPresence
    (abortSignal p ((demoteOwner p s).modPort p fun x =>
      { x with engine := { x.engine with fifo := [] }, portState := .localHold })) := rfl

theorem demoteOwner_offers (p : PortNo) (asked : Condition → Prop) (s : Part) :
    Offers p asked 1 s (demoteOwner p s) (s.ownerTold p) := by
  unfold Part.ownerTold demoteOwner
  cases h : s.ownerOf p with
  | none =>
    have := (Unheard.refl p s).offers asked
    exact { this with few := fun _ => Nat.zero_le _ }
  | some n =>
    let s1 := s.modSession n fun x => { x with role := .observer }
    let m := sessionEvent n (s.session n) .localPresence none (s.addressOf n)
    have hm : sessionEvent n (s1.session n) .localPresence none (s1.addressOf n) = m := by
      unfold Part.addressOf
      rw [Part.session_modSession_self]
      rfl
    have he : demote n .localPresence none s = ownerChanged ((offerNotice m s1).session n).port (offerNotice m s1) := by
      rw [← hm]
      rfl
    have hrep : reported p [m] = [] := rfl
    have hq := offering_congr (s := s) (t := s1) [m] rfl rfl
    have offered : Offers p asked 1 s (offerNotice m s1) [m] := {
      queue := hq.1
      lost := hq.2
      kept := fun c hc => by rw [(offerNotice_same m s1).port]; exact hc
      own := fun c hc => absurd hc List.not_mem_nil
      once := List.nodup_nil
      told := fun c _ h1 h2 => by
        rw [(offerNotice_same m s1).port] at h2
        exact absurd (h1.symm.trans h2) (by simp)
      masks := fun q _ => by rw [(offerNotice_same m s1).port]; rfl
      few := fun _ => le_refl _ }
    show Offers p asked 1 s (demote n .localPresence none s) [m]
    rw [he]
    exact offered.then (.modPort p _ _ (retried_conditions _) fun _ => congrArg _ (retried_profile _))

theorem formReply_unheard (p : PortNo) (k : SlotNo) (code : ResultCode) (data : List Byte) (s : Part) :
    Unheard p s (formReply k code data s) := by
  rw [formReply_eq]
  exact ⟨rfl, rfl, rfl, fun _ _ => rfl⟩

theorem Unheard.trans {p : PortNo} {s t u : Part} (a : Unheard p s t) (b : Unheard p t u) : Unheard p s u :=
  ⟨b.queue.trans a.queue, b.lost.trans a.lost, b.conditions.trans a.conditions, fun q hq => (b.masks q hq).trans (a.masks q hq)⟩

theorem abortSignal_unheard (p : PortNo) (s : Part) : Unheard p s (abortSignal p s) := by
  unfold abortSignal
  split
  · exact .refl p s
  · exact (Unheard.modPort p p s rfl fun h => absurd rfl h).trans (formReply_unheard p _ _ _ _)

/-- Local presence offers the owner's notice first and then at most the notice of LOCAL (R57; log 58). -/
theorem enterLocalHold_offers (p : PortNo) {asked : Condition → Prop} {s : Part} (ha : Asks p asked s) :
    ∃ l, Offers p asked 1 s (enterLocalHold p s) (s.ownerTold p ++ l) ∧ l.length ≤ 1 := by
  have h1 := demoteOwner_offers p asked s
  have hsame := demoteOwner_demoted p s
  rw [enterLocalHold_eq]
  generalize demoteOwner p s = t at h1 hsame
  let t1 := t.modPort p fun x => { x with engine := { x.engine with fifo := [] }, portState := .localHold }
  have h2 : Unheard p t (abortSignal p t1) :=
    (Unheard.modPort p p t rfl fun h => absurd rfl h).trans (abortSignal_unheard p t1)
  have hprofile : ((abortSignal p t1).port p).profile = (s.port p).profile := by
    have htp : (t.port p).profile = (s.port p).profile := by
      rw [hsame.port, ownerDemoted_port]
      split
      · exact retried_profile _
      · rfl
    rw [← htp, abortSignal_eq]
    refine (congrArg Port.profile (Part.port_setPort_self t1 p _)).trans ?_
    have htp1 : (t1.port p).profile = (t.port p).profile := by rw [Part.port_modPort_self]
    split
    · exact htp1
    · exact htp1
  have hsup : (abortSignal p t1).supervisor = s.supervisor := by
    have hts : t.supervisor = s.supervisor := by
      obtain ⟨m, b, e⟩ := hsame
      rw [e, ownerDemoted_eq]
      rfl
    rw [← hts]
    exact (abortSignal_frame p t1).supervisor
  obtain ⟨l, h3, hl⟩ := setCondition_offers p p .localPresence (s := abortSignal p t1) (asked := asked) fun c hc => by
    rw [hprofile, hsup]
    exact ha c hc
  exact ⟨l, (h1.then h2).trans h3, hl⟩

theorem closeBlock_unheard (p : PortNo) (r : CloseReason) (s : Part) : Unheard p s (closeBlock p r s) := by
  rw [closeBlock_eq]
  have h := Unheard.modPort p p s (f := Port.closed) (by rw [Port.closed_eq]) fun h => absurd rfl h
  exact ⟨h.queue, h.lost, h.conditions, h.masks⟩

/-- The part that has taken up an entry, its chain still to be trimmed (R38, R52). -/
def entrySettled (p : PortNo) (e : Profile) (s : Part) : Part :=
  (evalPause p ((closeBlock p .portEvent s).modPort p fun x => x.takeProfile e)).modPort p Port.enterSoft

/-- Presence acts on a port that has taken an entry (R52, R57). -/
def presenceActs (p : PortNo) (s : Part) : Part :=
  if (s.port p).presence && (s.port p).portState != .localHold then enterLocalHold p s else s

/-- While no port waits for a cell, the groups of an entry are the entry, the trim and what presence does (R52; log 18). -/
theorem takeGroups_eq (p : PortNo) (e : Profile) {s : Part} (hw : (entrySettled p e s).waitList = []) :
    takeGroups p e s = presenceActs p { trimChain p (entrySettled p e s) with walkDue := false } := by
  have h : takeGroups p e s = presenceActs p (settleWalks (retryPort p (trimChain p (entrySettled p e s)))) := rfl
  have hw' := (trimChain_trimmed p hw).waitList
  rw [h, retryPort_of_none_waits p hw', settleWalks_of_none_waits hw']

theorem entrySettled_waitList (p : PortNo) (e : Profile) (s : Part) : (entrySettled p e s).waitList = s.waitList :=
  (entryTaken_same p e s).waitList.trans (entryTaken_fields p e s).2.1

theorem presenceActs_offers (p : PortNo) {asked : Condition → Prop} {s : Part} (ha : Asks p asked s) :
    ∃ l, Offers p asked 1 s (presenceActs p s) l := by
  unfold presenceActs
  split
  · obtain ⟨l, h, -⟩ := enterLocalHold_offers p ha
    exact ⟨_, h⟩
  · exact ⟨[], { (Unheard.refl p s).offers asked with few := fun _ => Nat.zero_le _ }⟩

/-- Taking up an entry offers at most the PAUSE notice of the port, under the mask of the new entry (R38, R52). -/
theorem entrySettled_offers (p : PortNo) (e : Profile) {asked : Condition → Prop} {s : Part}
    (ha : ∀ c, asked c → hasCondition e.noticeMask c = true ∧ s.supervisor ≠ none) :
    Asks p asked (entrySettled p e s) ∧ ∃ l, Offers p asked 0 s (entrySettled p e s) l := by
  let t := (closeBlock p .portEvent s).modPort p fun x => x.takeProfile e
  have heard : Unheard p s t := (closeBlock_unheard p _ s).trans (.modPort p p _ rfl fun h => absurd rfl h)
  have hsup : t.supervisor = s.supervisor := (closeBlock_store p .portEvent s).supervisor
  have asks : Asks p asked t := fun c hc => by
    rw [Part.port_modPort_self, hsup]
    exact ha c hc
  refine ⟨asks.store ((evalPause_quiet p t).trans (Quiet.modPort _ p _ (Port.enterSoft_kept _))).toQueueFrame, ?_⟩
  obtain ⟨l, h⟩ := evalPause_offers p p asks
  exact ⟨l, Offers.after heard (h.then (.modPort p p _ (by rw [Port.enterSoft_eq]) fun h => absurd rfl h))⟩

/-- Taking the groups of an entry offers what pauses and presence ask for, under the mask of the new entry (R52). -/
theorem takeGroups_offers (p : PortNo) (e : Profile) {asked : Condition → Prop} {s : Part}
    (ha : ∀ c, asked c → hasCondition e.noticeMask c = true ∧ s.supervisor ≠ none) (hw : s.waitList = []) :
    ∃ l, Offers p asked 1 s (takeGroups p e s) l := by
  have hw' : (entrySettled p e s).waitList = [] := (entrySettled_waitList p e s).trans hw
  obtain ⟨asks, l1, h1⟩ := entrySettled_offers p e ha
  obtain ⟨l2, h2⟩ : ∃ l, Offers p asked 0 _ (trimChain p (entrySettled p e s)) l := trimLoop_offers p _ asks hw'
  have asks' : Asks p asked (trimChain p (entrySettled p e s)) := asks.store (trimChain_store p _).toQueueFrame
  rw [takeGroups_eq p e hw']
  generalize trimChain p (entrySettled p e s) = t at h2 asks'
  obtain ⟨l3, h3⟩ := presenceActs_offers p (s := { t with walkDue := false }) asks'
  have h4 : Unheard p t { t with walkDue := false } := ⟨rfl, rfl, rfl, fun _ _ => rfl⟩
  exact ⟨_, ((h1.trans h2).then h4).trans h3⟩

end Sys2Proof.Machine
end

section
namespace Sys2Proof.Machine
open Sys2Proof.Claims

/-! ### No event reads another port's notice mask but to form a notice (R179; log 15) -/

/-- The port with an empty notice mask. -/
def Port.unmasked (x : Port) : Port := { x with profile := { x.profile with noticeMask := 0 } }

/-- The two parts differ in the Notice Queue and in the notice masks of the ports other than p alone. -/
structure Alike (p : PortNo) (s t : Part) : Prop where
  own : t.port p = s.port p
  others : ∀ q, (t.port q).unmasked = (s.port q).unmasked
  rest : ∃ ports m b, t = { s with ports := ports, notices := m, noticesLost := b }

theorem SameButNotices.alike {s t : Part} (a : SameButNotices s t) (p : PortNo) : Alike p s t :=
  ⟨a.port p, fun q => by rw [a.port], s.ports, t.notices, t.noticesLost, a.eq⟩

theorem Alike.refl (p : PortNo) (s : Part) : Alike p s s := (SameButNotices.refl s).alike p

theorem Alike.trans {p : PortNo} {s t u : Part} (a : Alike p s t) (b : Alike p t u) : Alike p s u := by
  refine ⟨b.own.trans a.own, fun q => (b.others q).trans (a.others q), ?_⟩
  obtain ⟨ports, m, c, rfl⟩ := a.rest
  obtain ⟨ports', m', c', rfl⟩ := b.rest
  exact ⟨ports', m', c', rfl⟩

theorem Alike.same {p : PortNo} {s t s' t' : Part} (a : Alike p s t) (hs : SameButNotices s s') (ht : SameButNotices t t') :
    Alike p s' t' := (hs.symm.alike p).trans (a.trans (ht.alike p))

/-- Muting the other ports leaves a part alike (log 15). -/
theorem mutedBut_alike (p : PortNo) (s : Part) : Alike p s (s.mutedBut p) := by
  have hport (q : PortNo) : (s.mutedBut p).port q = if q = p then s.port q else (s.port q).unmasked := by
    simp only [Part.mutedBut, Part.port, Fin.getElem_fin, Vector.getElem_ofFn]
    rfl
  refine ⟨(hport p).trans (if_pos rfl), fun q => ?_, (s.mutedBut p).ports, s.notices, s.noticesLost, rfl⟩
  rw [hport]
  split_ifs <;> rfl

theorem mutedBut_mask {p q : PortNo} (s : Part) (h : q ≠ p) : ((s.mutedBut p).port q).profile.noticeMask = 0 := by
  simp only [Part.mutedBut, Part.port, Fin.getElem_fin, Vector.getElem_ofFn, if_neg h]

/-- What is read of every port without its mask is the same on parts that are alike. -/
theorem Alike.map_ports {p : PortNo} {s t : Part} (a : Alike p s t) {α : Type} (g : Port → α) (hg : ∀ x, g x.unmasked = g x) :
    t.ports.toList.map g = s.ports.toList.map g := by
  refine List.ext_getElem (by simp) fun i h _ => ?_
  have hi : i < 48 := by simpa using h
  have hport (u : Part) : g (u.ports.toList[i]'(by simpa using hi)) = g (u.port ⟨i, hi⟩).unmasked := (hg _).symm
  rw [List.getElem_map, List.getElem_map, hport, hport, a.others]

theorem Alike.sharedInUse {p : PortNo} {s t : Part} (a : Alike p s t) : t.sharedInUse = s.sharedInUse :=
  congrArg List.sum (a.map_ports (fun x => x.portUse - x.reserve) fun _ => rfl)

/-- An update of port p itself keeps parts alike, whatever it does. -/
theorem Alike.modOwn {p : PortNo} {s t : Part} (a : Alike p s t) (f : Port → Port) :
    Alike p (s.modPort p f) (t.modPort p f) := by
  refine ⟨by rw [Part.port_modPort_self, Part.port_modPort_self, a.own], fun q => ?_, ?_⟩
  · rw [Part.port_modPort, Part.port_modPort, a.own]
    split_ifs
    · rfl
    · exact a.others q
  · obtain ⟨ports, m, b, rfl⟩ := a.rest
    exact ⟨_, m, b, rfl⟩

/-- An update of any port keeps parts alike if it does not read the mask. -/
theorem Alike.modPort {p : PortNo} {s t : Part} (a : Alike p s t) (q : PortNo) {f : Port → Port}
    (hf : ∀ x, f x.unmasked = (f x).unmasked) : Alike p (s.modPort q f) (t.modPort q f) := by
  have hq : (f (t.port q)).unmasked = (f (s.port q)).unmasked := by rw [← hf, ← hf, a.others]
  refine ⟨?_, fun r => ?_, ?_⟩
  · rw [Part.port_modPort, Part.port_modPort]
    split_ifs with h
    · rw [h, a.own]
    · exact a.own
  · rw [Part.port_modPort, Part.port_modPort]
    split_ifs
    · exact hq
    · exact a.others r
  · obtain ⟨ports, m, b, rfl⟩ := a.rest
    exact ⟨_, m, b, rfl⟩

theorem Port.load_unmasked (x : Port) : x.unmasked.load = x.load.unmasked := by
  by_cases h : x.mayLoad
  · have h' : x.unmasked.mayLoad := h
    by_cases hf : ∃ ch, x.owesFlow ch
    · obtain ⟨ch, hf⟩ := hf
      rw [Port.load_flow h hf, Port.load_flow h' (ch := ch) hf]
      rfl
    · have hf' : ¬∃ ch, x.unmasked.owesFlow ch := hf
      match hq : x.engine.fifo, hs : x.fifoStopped with
      | [], _ => rw [Port.load_empty hf hq, Port.load_empty hf' hq]
      | _, true => rw [Port.load_stopped hf hs, Port.load_stopped hf' hs]
      | (v, tag) :: rest, false =>
        rw [Port.load_key h hf hs hq, Port.load_key h' hf' hs hq]
        rfl
  · have h' : ¬x.unmasked.mayLoad := h
    rw [Port.load_of_not h, Port.load_of_not h']

theorem paused_unmasked (x : Port) : paused x.unmasked = (paused x).unmasked := by
  rcases paused_cases x with ⟨h, e⟩ | ⟨h1, h2, h3, e⟩ | ⟨h1, h2, h3, e⟩ <;> rw [e]
  · exact paused_stands (x := x.unmasked) h
  · rw [paused_asserts (x := x.unmasked) h1 h2 h3, ← Port.load_unmasked]
    rfl
  · rw [paused_releases (x := x.unmasked) h1 h2 h3, ← Port.load_unmasked]
    rfl

theorem evalPause_alike {p : PortNo} {s t : Part} (a : Alike p s t) (q : PortNo) : Alike p (evalPause q s) (evalPause q t) :=
  (a.modPort q paused_unmasked).same (evalPause_same q s) (evalPause_same q t)

theorem setCondition_alike {p : PortNo} {s t : Part} (a : Alike p s t) (c : Condition) :
    Alike p (setCondition p c s) (setCondition p c t) :=
  (a.modOwn (·.withCondition c)).same (setCondition_same p c s) (setCondition_same p c t)

theorem formReply_alike {p : PortNo} {s t : Part} (a : Alike p s t) (k : SlotNo) (code : ResultCode) (data : List Byte) :
    Alike p (formReply k code data s) (formReply k code data t) := by
  obtain ⟨ports, m, b, rfl⟩ := a.rest
  rcases formReply_cases k code data s with ⟨h, hk, e⟩ | ⟨hk, e⟩
  · rw [e, formReply, show Part.slot { s with ports := ports, notices := m, noticesLost := b } k = .reserved h from hk]
    exact ⟨a.own, a.others, ports, m, b, rfl⟩
  · rw [e]
    rcases formReply_cases k code data { s with ports := ports, notices := m, noticesLost := b } with ⟨h, hk', -⟩ | ⟨-, e'⟩
    · exact absurd hk' (hk h)
    · rw [e']
      exact a

/-- The part whose OUTPUT block `b` is freed, its port's pause still to be evaluated (R64). -/
def Part.cellsFreed (s : Part) (b : Block) : Part :=
  let t := s.modPort b.port fun x => { x with portUse := x.portUse - b.cells.length }
  { t with
    blocks := s.blocks.filter (fun c => c.id != b.id), freeList := s.freeList ++ b.cells
    walkDue := s.walkDue || decide (t.sharedInUse < s.sharedInUse) }

theorem freeBlock_output {b : Block} (h : b.kind = .output) (s : Part) :
    freeBlock b s = evalPause b.port (s.cellsFreed b) := by
  unfold freeBlock
  rw [h]
  rfl

theorem freeBlock_keys {b : Block} (h : b.kind = .keys) (s : Part) : freeBlock b s =
    { s with blocks := s.blocks.filter (fun c => c.id != b.id), freeList := s.freeList ++ b.cells
             tapUse := s.tapUse - b.cells.length } := by
  unfold freeBlock
  rw [h]

theorem freeBlock_alike {p : PortNo} {s t : Part} (a : Alike p s t) (b : Block) : Alike p (freeBlock b s) (freeBlock b t) := by
  cases h : b.kind with
  | keys =>
    obtain ⟨ports, m, c, rfl⟩ := a.rest
    rw [freeBlock_keys h, freeBlock_keys h]
    exact ⟨a.own, a.others, ports, m, c, rfl⟩
  | output =>
    rw [freeBlock_output h, freeBlock_output h]
    have hmod := a.modPort b.port (f := fun x => { x with portUse := x.portUse - b.cells.length }) fun _ => rfl
    refine evalPause_alike (s := s.cellsFreed b) (t := t.cellsFreed b) ⟨hmod.own, hmod.others, ?_⟩ b.port
    unfold Part.cellsFreed
    dsimp only
    rw [a.sharedInUse, hmod.sharedInUse]
    obtain ⟨ports, m, c, rfl⟩ := a.rest
    exact ⟨_, m, c, rfl⟩

theorem Alike.block {p : PortNo} {s t : Part} (a : Alike p s t) (id : Nat) : t.block id = s.block id := by
  obtain ⟨ports, m, b, rfl⟩ := a.rest
  rfl

theorem Alike.modBlock {p : PortNo} {s t : Part} (a : Alike p s t) (id : Nat) (f : Block → Block) :
    Alike p (s.modBlock id f) (t.modBlock id f) := by
  refine ⟨a.own, a.others, ?_⟩
  obtain ⟨ports, m, b, rfl⟩ := a.rest
  exact ⟨ports, m, b, rfl⟩

theorem Alike.waitList {p : PortNo} {s t : Part} (a : Alike p s t) : t.waitList = s.waitList := by
  obtain ⟨ports, m, b, rfl⟩ := a.rest
  rfl

theorem Alike.walked {p : PortNo} {s t : Part} (a : Alike p s t) :
    Alike p { s with walkDue := false } { t with walkDue := false } := by
  refine ⟨a.own, a.others, ?_⟩
  obtain ⟨ports, m, b, rfl⟩ := a.rest
  exact ⟨ports, m, b, rfl⟩

theorem dropHold_alike {p : PortNo} {s t : Part} (a : Alike p s t) (id : Nat) : Alike p (dropHold id s) (dropHold id t) := by
  unfold dropHold
  rw [a.block]
  split
  · exact a
  · split
    · exact freeBlock_alike a _
    · exact a.modBlock id _

/-- While no port waits, a released hold is dropped, and the walk that a freed block brings has nothing to do (R71). -/
theorem releaseHold_eq (id : Nat) {s : Part} (h : s.waitList = []) :
    releaseHold id s = if s.lastHold id then { dropHold id s with walkDue := false } else dropHold id s := by
  have hw : (dropHold id s).waitList = [] := (dropHold_mem id s).2.trans h
  unfold releaseHold
  split
  · next hb => simp [dropHold, Part.lastHold, hb]
  · dsimp only
    split
    · rw [retryPort_of_none_waits _ hw, settleWalks_of_none_waits hw]
    · rfl

theorem releaseHold_alike {p : PortNo} {s t : Part} (a : Alike p s t) (id : Nat) (h : s.waitList = []) :
    Alike p (releaseHold id s) (releaseHold id t) := by
  rw [releaseHold_eq id h, releaseHold_eq id (a.waitList.trans h), Part.lastHold, Part.lastHold, a.block]
  split
  · exact (dropHold_alike a id).walked
  · exact dropHold_alike a id

theorem Alike.chainCells {p : PortNo} {s t : Part} (a : Alike p s t) : t.chainCells p = s.chainCells p :=
  Part.chainCells_congr (by rw [a.own]) fun k => by rw [Part.blockCells, a.block, Part.blockCells]

theorem trimLoop_alike {p : PortNo} {s t : Part} (n : Nat) (a : Alike p s t) (h : s.waitList = []) :
    Alike p (trimLoop p n s) (trimLoop p n t) := by
  induction n generalizing s t with
  | zero => exact a
  | succ k ih =>
    match hc : (s.port p).chain with
    | [] =>
      have hz : s.chainCells p ≤ (s.port p).profile.historyLimit := by simp [Part.chainCells, hc]
      rw [trimLoop_of_within _ hz, trimLoop_of_within _ (by rw [a.chainCells, a.own]; exact hz)]
      exact a
    | id :: rest =>
      by_cases hl : (s.port p).profile.historyLimit < s.chainCells p
      · rw [trimLoop_step k hc hl, trimLoop_step k (by rw [a.own]; exact hc) (by rw [a.chainCells, a.own]; exact hl)]
        have cut := a.modOwn fun x => { x with chain := rest }
        exact ih (releaseHold_alike cut id h) (releaseHold_mem (s := s.modPort p _) id h).2
      · rw [trimLoop_of_within _ (Nat.not_lt.1 hl), trimLoop_of_within _ (by rw [a.chainCells, a.own]; exact Nat.not_lt.1 hl)]
        exact a

theorem closeBlock_alike {p : PortNo} {s t : Part} (a : Alike p s t) (r : CloseReason) :
    Alike p (closeBlock p r s) (closeBlock p r t) := by
  unfold closeBlock
  rw [a.own]
  split
  · exact a
  · exact (a.modBlock _ _).modOwn _

theorem demoteOwner_alike {p : PortNo} {s t : Part} (a : Alike p s t) : Alike p (demoteOwner p s) (demoteOwner p t) := by
  refine Alike.same ?_ (demoteOwner_demoted p s) (demoteOwner_demoted p t)
  have howner : t.ownerOf p = s.ownerOf p := by
    obtain ⟨ports, m, b, rfl⟩ := a.rest
    rfl
  unfold Part.ownerDemoted
  rw [howner]
  split
  · next n _ =>
    have observes : Alike p (s.modSession n fun x => { x with role := .observer })
        (t.modSession n fun x => { x with role := .observer }) := by
      refine ⟨a.own, a.others, ?_⟩
      obtain ⟨ports, m, b, rfl⟩ := a.rest
      exact ⟨ports, m, b, rfl⟩
    exact observes.modOwn retried
  · exact a

theorem abortSignal_alike {p : PortNo} {s t : Part} (a : Alike p s t) : Alike p (abortSignal p s) (abortSignal p t) := by
  unfold abortSignal
  rw [a.own]
  split
  · exact a
  · exact formReply_alike (a.modOwn _) _ _ _

theorem enterLocalHold_alike {p : PortNo} {s t : Part} (a : Alike p s t) :
    Alike p (enterLocalHold p s) (enterLocalHold p t) := by
  rw [enterLocalHold_eq, enterLocalHold_eq]
  exact setCondition_alike (abortSignal_alike ((demoteOwner_alike a).modOwn _)) .localPresence

theorem takeGroups_alike {p : PortNo} {s t : Part} (a : Alike p s t) (e : Profile) (h : s.waitList = []) :
    Alike p (takeGroups p e s) (takeGroups p e t) := by
  have settled : Alike p (entrySettled p e s) (entrySettled p e t) :=
    (evalPause_alike ((closeBlock_alike a .portEvent).modOwn _) p).modOwn _
  have hs : (entrySettled p e s).waitList = [] := (entrySettled_waitList p e s).trans h
  have hchain : ((entrySettled p e t).port p).chain.length = ((entrySettled p e s).port p).chain.length := by rw [settled.own]
  have trimmed : Alike p (trimChain p (entrySettled p e s)) (trimChain p (entrySettled p e t)) := by
    unfold trimChain
    rw [hchain]
    exact trimLoop_alike _ settled hs
  rw [takeGroups_eq p e hs, takeGroups_eq p e (settled.waitList.trans hs)]
  have walked := trimmed.walked
  unfold presenceActs
  rw [walked.own]
  split
  · exact enterLocalHold_alike walked
  · exact walked

theorem Alike.accounting {p : PortNo} {s t : Part} (a : Alike p s t) (e : Profile) :
    Claims.accounting t p e = Claims.accounting s p e := by
  unfold Claims.accounting
  rw [a.own, a.sharedInUse, a.map_ports (fun y => y.profile.reserve) fun _ => rfl]

/-- A load that comes to its moment does the same on parts that are alike. -/
theorem finishLoad_alike {p : PortNo} {s t : Part} {l : PendingLoad} (a : Alike p s t) (hl : (s.port p).pendingLoad = some l)
    (h : s.waitList = []) : Alike p (finishLoad p s) (finishLoad p t) := by
  have hl' : (t.port p).pendingLoad = some l := by rw [a.own]; exact hl
  cases hc : accounting s p l.entry with
  | some code =>
    rw [finishLoad_refused hl hc, finishLoad_refused hl' ((a.accounting _).trans hc)]
    exact (formReply_alike (a.modOwn _) _ _ _).modOwn _
  | none =>
    rw [finishLoad_applied hl hc, finishLoad_applied hl' ((a.accounting _).trans hc)]
    refine (formReply_alike ?_ _ _ _).modOwn _
    have resumed := a.modOwn Port.resumed
    have emptied (u : Part) : SameButNotices u { u with notices := [], noticesLost := false } := ⟨_, _, rfl⟩
    refine (takeGroups_alike (resumed.same (emptied _) (emptied _)) l.entry h).same (inTableOrder_same p _ _)
      (inTableOrder_same p _ _)

end Sys2Proof.Machine
end

section
namespace Sys2Proof.Machine
open Sys2Proof.Claims

/-! ### The notices of one event stand in the order of the table (R179; log 15) -/

theorem Notice.withConditions_conditionOf (p : PortNo) (n : Notice) (set : BitVec 10) :
    (n.withConditions set).conditionOf p = n.conditionOf p := by
  cases h : n.body <;> simp [Notice.withConditions, Notice.conditionOf, h]

/-- The notices of port p in `own`, one for each condition, in the order of the table of R178. -/
def ofTable (p : PortNo) (old new : BitVec 10) (own : List Notice) : List Notice :=
  allConditions.filterMap fun c =>
    (own.find? fun n => n.conditionOf p == some c).map fun n => n.withConditions (old ||| (new &&& c.upTo))

theorem mem_reported {p : PortNo} {l : List Notice} {c : Condition} :
    c ∈ reported p l ↔ ∃ n ∈ l, n.conditionOf p = some c := List.mem_filterMap

theorem reported_ofTable (p : PortNo) (old new : BitVec 10) (own : List Notice) :
    reported p (ofTable p old new own) = allConditions.filter fun c => decide (c ∈ reported p own) := by
  unfold ofTable
  rw [← List.filterMap_eq_filter, reported, List.filterMap_filterMap]
  refine List.filterMap_congr fun c _ => ?_
  cases hf : own.find? fun n => n.conditionOf p == some c with
  | none =>
    have hno : c ∉ reported p own := fun hc => by
      obtain ⟨n, hn, hnc⟩ := mem_reported.1 hc
      exact absurd (beq_iff_eq.2 hnc) (List.find?_eq_none.1 hf n hn)
    exact (if_neg (by simpa using hno)).symm
  | some n =>
    have hn : n.conditionOf p = some c := by simpa using List.find?_some hf
    have hyes : c ∈ reported p own := mem_reported.2 ⟨n, List.mem_of_find?_eq_some hf, hn⟩
    refine ((Notice.withConditions_conditionOf p n _).trans hn).trans ?_
    exact (if_pos (by simpa using hyes)).symm

theorem ofTable_own {p : PortNo} {old new : BitVec 10} {own : List Notice} {n : Notice} (h : n ∈ ofTable p old new own) :
    (n.conditionOf p).isSome = true := by
  obtain ⟨c, -, hc⟩ := List.mem_filterMap.1 h
  obtain ⟨m, hm, rfl⟩ := Option.map_eq_some_iff.1 hc
  have : m.conditionOf p = some c := by simpa using List.find?_some hm
  rw [Notice.withConditions_conditionOf, this]
  rfl

/-- The places of port p's notices take the sorted ones in turn. -/
theorem reported_refill (p : PortNo) (l sorted : List Notice) (h : ∀ n ∈ sorted, (n.conditionOf p).isSome = true) :
    reported p (refill p l sorted) = (reported p sorted).take (reported p l).length := by
  induction l generalizing sorted with
  | nil => rfl
  | cons n rest ih =>
    cases hn : n.conditionOf p with
    | none =>
      have e : refill p (n :: rest) sorted = n :: refill p rest sorted := if_neg (by simp [hn])
      have hskip (k : List Notice) : reported p (n :: k) = reported p k := List.filterMap_cons_none hn
      rw [e, hskip, hskip, ih sorted h]
    | some c =>
      have e : refill p (n :: rest) sorted = sorted.take 1 ++ refill p rest sorted.tail := if_pos (by simp [hn])
      have hcount : (reported p (n :: rest)).length = (reported p rest).length + 1 :=
        congrArg List.length (List.filterMap_cons_some hn)
      rw [e, hcount]
      match sorted, h with
      | [], h =>
        have := ih [] h
        rw [reported_nil, List.take_nil] at this ⊢
        exact this
      | m :: more, h =>
        obtain ⟨d, hd⟩ := Option.isSome_iff_exists.1 (h m List.mem_cons_self)
        have htake (k : List Notice) : reported p (m :: k) = d :: reported p k := List.filterMap_cons_some hd
        refine (htake _).trans ?_
        rw [htake more, List.take_succ_cons, ← ih more fun k hk => h k (List.mem_cons_of_mem m hk)]
        rfl

theorem refill_length (p : PortNo) (l sorted : List Notice) : (refill p l sorted).length ≤ l.length := by
  induction l generalizing sorted with
  | nil => exact le_refl _
  | cons n rest ih =>
    unfold refill
    split
    · rw [List.length_append, List.length_cons]
      have h1 := ih sorted.tail
      have h2 : (sorted.take 1).length ≤ 1 := List.length_take_le 1 sorted
      omega
    · exact Nat.succ_le_succ (ih sorted)

/-- The Notice Queue stands empty, no loss to show: where an event starts. -/
def Part.emptied (s : Part) : Part := { s with notices := [], noticesLost := false }

/-- Every notice of port p that the event `f` forms. -/
def eventOwn (p : PortNo) (f : Part → Part) (s : Part) : List Notice :=
  if (f s.emptied).noticesLost then (f (s.emptied.mutedBut p)).notices else (f s.emptied).notices

/-- The notices of the event `f` as they are offered. -/
def eventNotices (p : PortNo) (f : Part → Part) (s : Part) : List Notice :=
  refill p (f s.emptied).notices
    (ofTable p (s.port p).conditions ((f s.emptied).port p).conditions (eventOwn p f s))

theorem inTableOrder_queue (p : PortNo) (f : Part → Part) (s : Part) :
    (inTableOrder p f s).notices = (s.offering (eventNotices p f s)).notices ∧
    (inTableOrder p f s).noticesLost = ((f s.emptied).noticesLost || (s.offering (eventNotices p f s)).noticesLost) := by
  obtain ⟨hq, hl⟩ := offering_congr (s := s)
    (t := { f s.emptied with notices := s.notices, noticesLost := s.noticesLost }) (eventNotices p f s) rfl rfl
  have e : inTableOrder p f s =
      let u := Part.offering { f s.emptied with notices := s.notices, noticesLost := s.noticesLost } (eventNotices p f s)
      if (f s.emptied).noticesLost then { u with noticesLost := true } else u := rfl
  rw [e]
  cases (f s.emptied).noticesLost with
  | true => exact ⟨hq, rfl⟩
  | false => exact ⟨hq, hl⟩

theorem reported_eventNotices (p : PortNo) (f : Part → Part) (s : Part) : reported p (eventNotices p f s) =
    (allConditions.filter fun c => decide (c ∈ reported p (eventOwn p f s))).take
      (reported p (f s.emptied).notices).length := by
  rw [eventNotices, reported_refill p _ _ fun n hn => ofTable_own hn, reported_ofTable]

theorem allConditions_sorted : allConditions.Pairwise fun c d => c.code < d.code := by decide

/-- A list that starts as a part of the table does, and one of its conditions, holds every earlier condition of that part. -/
theorem mem_of_earlier {l : List Condition} {q : Condition → Bool} (h : l <+: allConditions.filter q) {c d : Condition}
    (hd : d ∈ l) (hc : q c = true) (hcd : c.code < d.code) : c ∈ l := by
  obtain ⟨rest, hrest⟩ := h
  have hsorted := (allConditions_sorted.filter q)
  rw [← hrest, List.pairwise_append] at hsorted
  have hmem : c ∈ allConditions.filter q := List.mem_filter.2 ⟨by cases c <;> decide, hc⟩
  rw [← hrest, List.mem_append] at hmem
  refine hmem.resolve_right fun hlate => ?_
  exact absurd (hsorted.2.2 d hd c hlate) (Nat.not_lt.2 hcd.le)

/-- The notices that an event of port p has queued stand in the order of the table, if the event formed a notice of every condition
that it newly set and that was asked for (R179; log 15). -/
theorem noticedInOrder_of_event {p : PortNo} {f : Part → Part} {s t u : Part} (ht : t.notices = s.notices)
    (hu : u.notices = (inTableOrder p f t).notices)
    (hown : ∀ c, s.supervisor ≠ none → hasCondition (s.port p).conditions c = false →
      hasCondition (u.port p).conditions c = true → hasCondition (s.port p).profile.noticeMask c = true →
      hasCondition (u.port p).profile.noticeMask c = true → c ∈ reported p (eventOwn p f t)) : NoticedInOrder p s u := by
  obtain ⟨more, hmore, hcontent, -⟩ := offering_notices t (eventNotices p f t)
  have hprefix : reported p more <+: allConditions.filter fun c => decide (c ∈ reported p (eventOwn p f t)) := by
    rw [reported_content hcontent]
    refine List.IsPrefix.trans ?_ (reported_eventNotices p f t ▸ List.take_prefix _ _)
    refine ⟨reported p ((eventNotices p f t).drop (Config.noticePlaces - t.notices.length)), ?_⟩
    rw [← reported_append, List.take_append_drop]
  have hsorted : (reported p more).Pairwise fun c d => c.code < d.code :=
    List.Pairwise.sublist hprefix.sublist (allConditions_sorted.filter _)
  refine ⟨more, ?_, ?_, fun c d hcd hd hsup hclear hset hmask hmask' => ?_⟩
  · rw [hu, (inTableOrder_queue p f t).1, hmore, ht]
  · have e : (more.filterMap fun m => (m.conditionOf p).map Condition.code) = (reported p more).map Condition.code := by
      rw [reported, List.map_filterMap]
    rw [e, List.pairwise_map]
    exact hsorted
  · rw [← mem_reported] at hd ⊢
    exact mem_of_earlier hprefix hd (decide_eq_true (hown c hsup hclear hset hmask hmask')) hcd

/-! ### What an event tells, whatever it offers about other ports -/

/-- Unless a loss shows, the notices of an operation are all those it offered. -/
theorem Offers.unlost {p : PortNo} {asked : Condition → Prop} {k : Nat} {s t : Part} {l : List Notice}
    (h : Offers p asked k s t l) (hl : t.noticesLost = false) :
    ∃ more, t.notices = s.notices ++ more ∧ more.map Notice.content = l.map Notice.content := by
  obtain ⟨more, hmore, hcontent, hall⟩ := offering_notices s l
  refine ⟨more, h.queue.trans hmore, ?_⟩
  have hlen := hall.resolve_right (by rw [← h.lost, hl]; simp)
  have htake : (l.take (Config.noticePlaces - s.notices.length)).length = l.length := by
    have := congrArg List.length hcontent
    simp only [List.length_map] at this
    omega
  rw [hcontent, List.take_of_length_le (by rw [List.length_take] at htake; omega)]

theorem Offers.room {p : PortNo} {asked : Condition → Prop} {k : Nat} {s t : Part} {l : List Notice}
    (h : Offers p asked k s t l) (hroom : s.notices.length + l.length ≤ Config.noticePlaces) (hl : s.noticesLost = false) :
    t.noticesLost = false := by
  rw [h.lost]
  exact offering_room hroom hl

/-- Conditions without repeats, sorted by the table, are no fewer. -/
theorem filter_allConditions_length {l : List Condition} (h : l.Nodup) :
    (allConditions.filter fun c => decide (c ∈ l)).length = l.length := by
  have hnodup : allConditions.Nodup := by decide
  refine List.Perm.length_eq ((List.perm_ext_iff_of_nodup (hnodup.filter _) h).2 fun c => ?_)
  have hall : c ∈ allConditions := by cases c <;> decide
  simp [List.mem_filter, hall]

/-- As one event an operation tells all it offers about port p, or a loss shows. -/
theorem Offers.event {p : PortNo} {asked : Condition → Prop} {k : Nat} {f : Part → Part} {s : Part} {l : List Notice}
    (h : Offers p asked k s.emptied (f s.emptied) l) : ∃ more, (inTableOrder p f s).notices = s.notices ++ more ∧
      ((inTableOrder p f s).noticesLost = true ∨ ∀ c ∈ reported p l, c ∈ reported p more) := by
  obtain ⟨hqueue, hlost⟩ := inTableOrder_queue p f s
  obtain ⟨more, hmore, hcontent, hall⟩ := offering_notices s (eventNotices p f s)
  refine ⟨more, hqueue.trans hmore, ?_⟩
  cases hl : (f s.emptied).noticesLost with
  | true => exact .inl (by rw [hlost, hl, Bool.true_or])
  | false =>
    rcases hall with hlen | hlost'
    · refine .inr fun c hc => ?_
      obtain ⟨formed, hformed, hsame⟩ := h.unlost hl
      have hreported : reported p (f s.emptied).notices = reported p l := by
        rw [hformed]
        exact reported_content hsame
      have hown : eventOwn p f s = (f s.emptied).notices := if_neg (by simp [hl])
      have hevent : reported p (eventNotices p f s) = allConditions.filter fun c => decide (c ∈ reported p l) := by
        rw [reported_eventNotices, hown, hreported, List.take_of_length_le (filter_allConditions_length h.once).le]
      have htake : (eventNotices p f s).length ≤ Config.noticePlaces - s.notices.length := by
        have := congrArg List.length hcontent
        simp only [List.length_map, List.length_take] at this
        omega
      rw [reported_content hcontent, List.take_of_length_le htake, hevent, List.mem_filter]
      exact ⟨by cases c <;> decide, decide_eq_true hc⟩
    · exact .inl (by rw [hlost, hlost', Bool.or_true])

/-- As one event, offers that find room lose nothing. -/
theorem Offers.event_room {p : PortNo} {asked : Condition → Prop} {k : Nat} {f : Part → Part} {s : Part} {l : List Notice}
    (h : Offers p asked k s.emptied (f s.emptied) l) (hroom : s.notices.length + l.length ≤ Config.noticePlaces)
    (hl : s.noticesLost = false) : (inTableOrder p f s).noticesLost = false := by
  have hempty : s.emptied.notices.length = 0 := rfl
  have hl' : (f s.emptied).noticesLost = false := h.room (by omega) rfl
  obtain ⟨formed, hformed, hsame⟩ := h.unlost hl'
  have hlen : (f s.emptied).notices.length = l.length := by
    have := congrArg List.length hsame
    simp only [List.length_map] at this
    rw [hformed]
    exact (List.length_append).trans (by omega)
  have hevent : (eventNotices p f s).length ≤ l.length := hlen ▸ refill_length p _ _
  rw [(inTableOrder_queue p f s).2, hl', Bool.false_or]
  exact offering_room (by omega) hl

/-- What a load that comes to its moment tells of port p: the conditions it newly sets, if they are asked for, or a loss shows; and
no condition is undone. Where the other ports are muted and few notices wait, nothing is lost. -/
structure LoadTells (p : PortNo) (asked : Condition → Prop) (s t : Part) : Prop where
  told : ∃ more, t.notices = s.notices ++ more ∧ (t.noticesLost = true ∨ ∀ c, asked c →
    hasCondition (s.port p).conditions c = false → hasCondition (t.port p).conditions c = true → c ∈ reported p more)
  kept : ∀ c, hasCondition (s.port p).conditions c = true → hasCondition (t.port p).conditions c = true
  unlost : (∀ q, q ≠ p → (s.port q).profile.noticeMask = 0) → s.notices.length ≤ 2 → s.noticesLost = false →
    t.noticesLost = false

theorem Unheard.loadTells {p : PortNo} {s t : Part} (h : Unheard p s t) (asked : Condition → Prop) : LoadTells p asked s t where
  told := ⟨[], by rw [h.queue, List.append_nil], .inr fun c _ h1 h2 => by rw [h.conditions, h1] at h2; cases h2⟩
  kept c hc := by rw [h.conditions]; exact hc
  unlost _ _ hl := h.lost.trans hl

theorem LoadTells.between {p : PortNo} {asked : Condition → Prop} {s t u v : Part} (a : Unheard p s t) (b : LoadTells p asked t u)
    (c : Unheard p u v) : LoadTells p asked s v where
  told := by
    obtain ⟨more, hmore, htold⟩ := b.told
    refine ⟨more, by rw [c.queue, hmore, a.queue], htold.imp (fun h => c.lost.trans h) fun h d hd h1 h2 => h d hd ?_ ?_⟩
    · rw [a.conditions]; exact h1
    · rw [← c.conditions]; exact h2
  kept d hd := by
    rw [c.conditions]
    exact b.kept d (by rw [a.conditions]; exact hd)
  unlost hm hlen hl :=
    c.lost.trans (b.unlost (fun q hq => (a.masks q hq).trans (hm q hq)) (by rw [a.queue]; exact hlen) (a.lost.trans hl))

/-- An apply tells what its groups offer (R52, R179). -/
theorem applyProfile_tells (p : PortNo) (e : Profile) {asked : Condition → Prop} {s : Part}
    (ha : ∀ c, asked c → hasCondition e.noticeMask c = true ∧ s.supervisor ≠ none) (hw : s.waitList = []) :
    LoadTells p asked s (applyProfile p e s) := by
  obtain ⟨l, h⟩ := takeGroups_offers p e (s := s.emptied) ha hw
  have hport : (applyProfile p e s).port p = (takeGroups p e s.emptied).port p := (inTableOrder_same p _ s).port p
  obtain ⟨more, hmore, htold⟩ := h.event
  refine ⟨⟨more, hmore, htold.imp_right fun ht c hc h1 h2 => ht c (h.told c hc h1 (hport ▸ h2))⟩,
    fun c hc => by rw [hport]; exact h.kept c hc, fun hm hlen hl => h.event_room ?_ hl⟩
  have h1 := h.few hm
  have h2 := conditions_nodup_length h.once
  have h3 : Config.noticePlaces = 32 := rfl
  omega

/-- What a load that comes to its moment tells, accepted or refused (R47, R52, R179). -/
theorem finishLoad_tells {p : PortNo} {l : PendingLoad} {asked : Condition → Prop} {s : Part}
    (hl : (s.port p).pendingLoad = some l) (hw : s.waitList = [])
    (ha : ∀ c, asked c → (accounting s p l.entry = none → hasCondition l.entry.noticeMask c = true) ∧ s.supervisor ≠ none) :
    LoadTells p asked s (finishLoad p s) := by
  have resumed : Unheard p s (s.modPort p Port.resumed) := .modPort p p s rfl fun h => absurd rfl h
  have answered (code : ResultCode) (data : List Byte) (t : Part) : Unheard p t (loadAnswered p l code data t) :=
    (formReply_unheard p _ _ _ t).trans (.modPort p p _ (Port.load_conditions _) fun h => absurd rfl h)
  cases hc : accounting s p l.entry with
  | some code =>
    rw [finishLoad_refused hl hc]
    exact (resumed.trans (answered _ _ _)).loadTells asked
  | none =>
    rw [finishLoad_applied hl hc]
    exact .between resumed (applyProfile_tells p l.entry (s := s.modPort p Port.resumed)
      (fun c hasked => ⟨(ha c hasked).1 hc, (ha c hasked).2⟩) hw) (answered _ _ _)

end Sys2Proof.Machine
end

section
namespace Sys2Proof.Machine
open Sys2Proof.Claims

/-! ### A load that comes to its moment inside a larger event (R51, R57, R179; log 15) -/

theorem SameButNotices.loadFinished {p : PortNo} {l : PendingLoad} {s s' t t' : Part} (a : SameButNotices s s')
    (b : SameButNotices t t') (h : LoadFinished p l s t) : LoadFinished p l s' t' := by
  obtain ⟨m, x, rfl⟩ := a
  obtain ⟨n, y, rfl⟩ := b
  exact ⟨h.pending, h.kept, h.refused, h.applied, h.pause, h.lines, h.engine, h.presence, h.sessions, h.signal, h.signalled,
    h.reply, h.memory, h.others, h.queues⟩

theorem emptied_same (s : Part) : SameButNotices s s.emptied := ⟨_, _, rfl⟩

/-- On every part alike to `s` the operation `lead` brings the load `l` of port p to its moment, offers at most two notices, one of
them about another thing than a condition of p, and keeps what the load asks of the part. -/
structure LeadsToLoad (p : PortNo) (l : PendingLoad) (lead : Part → Part) (s : Part) : Prop where
  alike : ∀ t, Alike p s t → Alike p (lead s) (lead t)
  offers : ∀ asked t, Alike p s t → Asks p asked t → ∃ n, Offers p asked 1 t (lead t) n ∧ n.length ≤ 2
  load : ((lead s).port p).pendingLoad = some l
  shift : ((lead s).port p).engine.shift = .empty
  waitList : (lead s).waitList = []
  supervisor : (lead s).supervisor = s.supervisor

/-- The event: `lead`, and the load that comes to its moment with it. -/
def loadEvent (p : PortNo) (lead : Part → Part) (s : Part) : Part := finishFlushed p (lead s)

theorem LeadsToLoad.event {p : PortNo} {l : PendingLoad} {lead : Part → Part} {s t : Part} (h : LeadsToLoad p l lead s)
    (hf : l.flushed ≠ none) (a : Alike p s t) : loadEvent p lead t = finishLoad p (lead t) := by
  have hport := (h.alike t a).own
  exact finishFlushed_flushed (by rw [hport]; exact h.shift) (by rw [hport]; exact h.load) hf

theorem Alike.supervisor {p : PortNo} {s t : Part} (a : Alike p s t) : t.supervisor = s.supervisor := by
  obtain ⟨ports, m, b, rfl⟩ := a.rest
  rfl

/-- From an empty Notice Queue the event tells each condition of port p that it newly sets and that is asked for, or a loss shows;
where the other ports are muted none does. -/
theorem LeadsToLoad.tells {p : PortNo} {l : PendingLoad} {lead : Part → Part} {s t : Part} {asked : Condition → Prop}
    (h : LeadsToLoad p l lead s) (hf : l.flushed ≠ none) (a : Alike p s t) (ht : t.notices = []) (hlost : t.noticesLost = false)
    (ha : Asks p asked s)
    (hentry : ∀ c, asked c → accounting (lead s) p l.entry = none → hasCondition l.entry.noticeMask c = true) :
    ((loadEvent p lead t).noticesLost = true ∨ ∀ c, asked c → hasCondition (s.port p).conditions c = false →
      hasCondition ((loadEvent p lead t).port p).conditions c = true → c ∈ reported p (loadEvent p lead t).notices) ∧
    ((∀ q, q ≠ p → (t.port q).profile.noticeMask = 0) → (loadEvent p lead t).noticesLost = false) := by
  have alike := h.alike t a
  obtain ⟨n, hn, hfew⟩ := h.offers asked t a fun c hc => by
    rw [a.own, a.supervisor]
    exact ha c hc
  have hroom : t.notices.length + n.length ≤ Config.noticePlaces := by
    rw [ht, List.length_nil, Nat.zero_add]
    exact Nat.le_trans hfew (by decide : 2 ≤ 32)
  have hlead : (lead t).noticesLost = false := hn.room hroom hlost
  obtain ⟨first, hfirst, hcontent⟩ := hn.unlost hlead
  rw [ht, List.nil_append] at hfirst
  have tells : LoadTells p asked (lead t) (finishLoad p (lead t)) := by
    refine finishLoad_tells (by rw [alike.own]; exact h.load) (alike.waitList.trans h.waitList) fun c hc => ⟨fun hacc => ?_, ?_⟩
    · exact hentry c hc ((alike.accounting _).symm.trans hacc)
    · rw [alike.supervisor, h.supervisor]
      exact (ha c hc).2
  rw [h.event hf a]
  obtain ⟨more, hmore, htold⟩ := tells.told
  refine ⟨htold.imp_right fun told c hc hclear hset => ?_,
    fun hm => tells.unlost (fun q hq => (hn.masks q hq).trans (hm q hq)) ?_ hlead⟩
  · rw [hmore, hfirst, reported_append, List.mem_append, reported_content hcontent]
    rw [← a.own] at hclear
    cases hmid : hasCondition ((lead t).port p).conditions c with
    | true => exact .inl (hn.told c hc hclear hmid)
    | false => exact .inr (told c hc hmid hset)
  · rw [hfirst]
    have := congrArg List.length hcontent
    simp only [List.length_map] at this
    omega

/-- The notices of the event stand in the order of the table (R179; log 15). -/
theorem LeadsToLoad.noticedInOrder {p : PortNo} {l : PendingLoad} {lead : Part → Part} {s t u : Part}
    (h : LeadsToLoad p l lead t.emptied) (hf : l.flushed ≠ none)
    (hfin : LoadFinished p l (lead t.emptied) (finishLoad p (lead t.emptied)))
    (hq : t.notices = s.notices) (hc : (t.port p).conditions = (s.port p).conditions) (hm : (t.port p).profile = (s.port p).profile)
    (hs : t.supervisor = s.supervisor) (hu : SameButNotices (inTableOrder p (loadEvent p lead) t) u)
    (hn : u.notices = (inTableOrder p (loadEvent p lead) t).notices) : NoticedInOrder p s u := by
  refine noticedInOrder_of_event hq hn fun c hsup hclear hset hmask hmask' => ?_
  have muted : Alike p t.emptied (t.emptied.mutedBut p) := mutedBut_alike p _
  have hport : u.port p = (loadEvent p lead t.emptied).port p :=
    (hu.port p).trans ((inTableOrder_same p (loadEvent p lead) t).port p)
  have hmuted : (loadEvent p lead (t.emptied.mutedBut p)).port p = (loadEvent p lead t.emptied).port p := by
    rw [h.event hf muted, h.event hf (.refl p _)]
    exact (finishLoad_alike (h.alike _ muted) h.load h.waitList).own
  have ha : Asks p (· = c) t.emptied := by
    rintro d rfl
    exact ⟨(congrArg (hasCondition ·.noticeMask d) hm).trans hmask, fun hno => hsup (hs.symm.trans hno)⟩
  have hentry : ∀ d, d = c → accounting (lead t.emptied) p l.entry = none → hasCondition l.entry.noticeMask d = true := by
    rintro d rfl hacc
    rw [← (hfin.applied hacc).1, ← h.event hf (.refl p _), ← hport]
    exact hmask'
  have hclear' : hasCondition ((t.emptied).port p).conditions c = false := (congrArg (hasCondition · c) hc).trans hclear
  rw [eventOwn]
  split_ifs with hlost
  · obtain ⟨told, unlost⟩ := h.tells hf muted rfl rfl ha hentry
    refine told.resolve_left ?_ c rfl hclear' (by rw [hmuted, ← hport]; exact hset)
    rw [unlost fun q hq => mutedBut_mask _ hq]
    exact Bool.false_ne_true
  · obtain ⟨told, -⟩ := h.tells hf (.refl p _) rfl rfl ha hentry
    exact told.resolve_left hlost c rfl hclear' (by rw [← hport]; exact hset)

/-- No condition of port p is undone by the load. -/
theorem LeadsToLoad.keeps {p : PortNo} {l : PendingLoad} {lead : Part → Part} {s : Part} (h : LeadsToLoad p l lead s)
    (hf : l.flushed ≠ none) {c : Condition} (hc : hasCondition ((lead s).port p).conditions c = true) :
    hasCondition ((loadEvent p lead s).port p).conditions c = true := by
  rw [h.event hf (.refl p s)]
  exact (finishLoad_tells (asked := fun _ => False) h.load h.waitList fun _ hno => hno.elim).kept c hc

/-! ### The timers of a port expire (R51, R88, R105) -/

theorem setCondition_congr {s t : Part} (a : SameButNotices s t) (p : PortNo) (c : Condition) :
    SameButNotices (setCondition p c s) (setCondition p c t) :=
  (setCondition_same p c s).symm.trans ((a.modPort p _).trans (setCondition_same p c t))

/-- The RECONFIG limit brings the load to its moment where the register is empty (R51). -/
theorem reconfigFlush_leads {p : PortNo} {l : PendingLoad} {s : Part} (hl : (s.port p).pendingLoad = some l)
    (hs : (s.port p).engine.shift = .empty) (hw : s.waitList = []) :
    LeadsToLoad p l (setCondition p .reconfigFlush) s where
  alike t a := setCondition_alike a .reconfigFlush
  offers asked t _ ha := by
    obtain ⟨n, hn, hlen⟩ := setCondition_offers p p .reconfigFlush ha
    exact ⟨n, { hn with few := fun hm => (hn.few hm).trans (Nat.le_succ _) }, hlen.trans (by decide)⟩
  load := by rw [(setCondition_same p .reconfigFlush s).port, Part.port_modPort_self]; exact hl
  shift := by rw [(setCondition_same p .reconfigFlush s).port, Part.port_modPort_self]; exact hs
  waitList := (setCondition_same p .reconfigFlush s).waitList.trans hw
  supervisor := (setCondition_quiet p .reconfigFlush s).supervisor

/-- A signal and a load of one port wait in slots of their own (R14). -/
theorem slotsHeld_signal {s : State} (h : s.slotsHeld) {p : PortNo} {l : PendingLoad} {g : Signal}
    (hl : (s.part.port p).pendingLoad = some l) (hg : (s.part.port p).signal = some g) :
    g.slot ≠ l.slot ∧ ∃ r, s.part.slot g.slot = .reserved r := by
  have hsignal : s.part.slotOf (.signal p) = some g.slot := congrArg (Option.map Signal.slot) hg
  have hload : s.part.slotOf (.load p) = some l.slot := congrArg (Option.map PendingLoad.slot) hl
  refine ⟨fun e => ?_, h.reserved _ _ hsignal⟩
  have := h.once _ _ _ (e ▸ hsignal) hload
  cases this

theorem setCondition_port (p : PortNo) (c : Condition) (s : Part) : (setCondition p c s).port p = (s.port p).withCondition c := by
  rw [(setCondition_same p c s).port, Part.port_modPort_self]

/-- The RECONFIG limit and the load it brings to its moment are one event (R51, R179; log 15). -/
theorem reconfigLimit_finishes {p : PortNo} {l : PendingLoad} {s t : Part} (hl : (t.port p).pendingLoad = some l)
    (hf : l.flushed ≠ none) (hs : (t.port p).engine.shift = .empty) (hw : t.waitList = []) (hq : t.notices = s.notices)
    (hc : (t.port p).conditions = (s.port p).conditions) (hm : (t.port p).profile = (s.port p).profile)
    (hsup : t.supervisor = s.supervisor)
    (hslot : metByPresence p l (setCondition p .reconfigFlush t.emptied) →
      ∀ g, (t.port p).signal = some g → g.slot ≠ l.slot ∧ ∃ r, t.slot g.slot = .reserved r) :
    LoadFinished p l (setCondition p .reconfigFlush t) (inTableOrder p (loadEvent p (setCondition p .reconfigFlush)) t) ∧
      hasCondition ((inTableOrder p (loadEvent p (setCondition p .reconfigFlush)) t).port p).conditions .reconfigFlush = true ∧
      NoticedInOrder p s (inTableOrder p (loadEvent p (setCondition p .reconfigFlush)) t) := by
  have leads : LeadsToLoad p l (setCondition p .reconfigFlush) t.emptied := reconfigFlush_leads (s := t.emptied) hl hs hw
  have hset := setCondition_port p .reconfigFlush t.emptied
  have hfin : LoadFinished p l (setCondition p .reconfigFlush t.emptied) (finishLoad p (setCondition p .reconfigFlush t.emptied)) := by
    refine finishLoad_finished leads.load leads.waitList fun hmet g hg => ?_
    rw [hset] at hg
    obtain ⟨hne, r, hr⟩ := hslot hmet g hg
    refine ⟨hne, r, ?_⟩
    rw [Part.slot, (setCondition_same p .reconfigFlush t.emptied).slots]
    exact hr
  have hevent := inTableOrder_same p (loadEvent p (setCondition p .reconfigFlush)) t
  refine ⟨?_, ?_, leads.noticedInOrder hf hfin hq hc hm hsup (.refl _) rfl⟩
  · refine SameButNotices.loadFinished (setCondition_congr (emptied_same t).symm p .reconfigFlush) ?_ hfin
    rw [← leads.event hf (.refl p _)]
    exact hevent
  · rw [hevent.port]
    refine leads.keeps hf ?_
    rw [hset]
    exact (hasCondition_or _ _ _).trans (by rw [hasCondition_bit, Bool.or_true])

/-- The port as its RECONFIG limit leaves it: the FIFO flushed, its bytes counted for the load's answer (R51). -/
def Port.limitReached (x : Port) : Port := Port.flushLoad { x with engine := { x.engine with fifo := [] } } x.engine.fifo.length

theorem Port.limitReached_eq {x : Port} {l : PendingLoad} (h : x.pendingLoad = some l) : x.limitReached =
    { x with reconfigTimer := none, engine := { x.engine with fifo := [] }
             pendingLoad := some { l with flushed := some (l.flushed.getD x.engine.fifo.length) } } := by
  unfold Port.limitReached Port.flushLoad
  dsimp only
  rw [h]
  rfl

theorem expireReconfig_running {p : PortNo} {s : Part} (h : (s.port p).reconfigTimer ≠ none) : expireReconfig p s =
    if ((s.modPort p Port.limitReached).port p).engine.shift = .empty then
      inTableOrder p (loadEvent p (setCondition p .reconfigFlush)) (s.modPort p Port.limitReached)
    else setCondition p .reconfigFlush (s.modPort p Port.limitReached) := if_neg h

/-- Settles O54: each timer by its own operation, and the limit's event by what brings the load to its moment. -/
theorem portTimersExpire : Obligations.PortTimersExpire := by
  unfold Obligations.PortTimersExpire
  intro s p x
  refine ⟨fun h => ?_, fun l ht hl => ?_, fun h => ?_, fun h ho => ?_, fun id h ho => ?_, fun h => ?_, fun h hh => ?_⟩
  · show donePart (expireReconfig p) s = _
    rw [donePart, expireReconfig, if_pos h, done]
  · intro l' y
    let t := s.part.setPort p y
    have hport : t.port p = y := Part.port_setPort_self s.part p y
    have hflushed : s.part.modPort p Port.limitReached = t := congrArg (s.part.setPort p) (Port.limitReached_eq hl)
    have hexpire := expireReconfig_running ht
    rw [hflushed, hport] at hexpire
    refine ⟨fun hs => ?_, fun hs hsignal hw => ?_⟩
    · show donePart (expireReconfig p) s = _
      rw [donePart, hexpire, if_neg hs, done]
    · have hheld : metByPresence p l' (setCondition p .reconfigFlush t.emptied) →
          ∀ g, (t.port p).signal = some g → g.slot ≠ l'.slot ∧ ∃ r, t.slot g.slot = .reserved r := fun hm g hg => by
        have hd : ((setCondition p .reconfigFlush t.emptied).port p).dsrDebounced = (t.port p).dsrDebounced :=
          (congrArg Port.dsrDebounced (setCondition_port p .reconfigFlush t.emptied)).trans rfl
        rw [hport] at hg hd
        rcases hsignal with hn | hp | hno | hh
        · exact absurd (hn.symm.trans hg) (by simp)
        · exact absurd hm.2.1 hp
        · exact absurd ((hd.trans hno).symm.trans hm.2.2.1) (by simp)
        · exact slotsHeld_signal (l := l) hh hl hg
      obtain ⟨hfin, hflush, hordered⟩ := reconfigLimit_finishes (s := s.part) (l := l') (congrArg Port.pendingLoad hport)
        (by simp [l']) ((congrArg (·.engine.shift) hport).trans hs) hw rfl ((congrArg Port.conditions hport).trans rfl)
        ((congrArg Port.profile hport).trans rfl) rfl hheld
      refine ⟨{ s with part := inTableOrder p (loadEvent p (setCondition p .reconfigFlush)) t }, ?_, hfin, hflush, hordered, rfl, rfl⟩
      show donePart (expireReconfig p) s = _
      rw [donePart, hexpire, if_pos hs, done]
  · show donePart (expireGap p) s = _
    rw [donePart, expireGap, if_pos h, done]
  · show donePart (expireGap p) s = _
    have hopen : ((s.part.modPort p fun x => { x with gapTimer := none }).port p).openBlock = none := by
      rw [Part.port_modPort_self]
      exact ho
    rw [donePart, expireGap, if_neg h, closeBlock, hopen, done]
    rfl
  · show donePart (expireGap p) s = _
    have hopen : ((s.part.modPort p fun x => { x with gapTimer := none }).port p).openBlock = some id := by
      rw [Part.port_modPort_self]
      exact ho
    have hclosed : closeBlock p .gap (s.part.modPort p fun x => { x with gapTimer := none }) =
        (s.part.setPort p { x with gapTimer := none, openBlock := none, blockQueue := x.blockQueue ++ [id] }).modBlock id
          fun b => { b with closeReason := some .gap } := by
      rw [closeBlock, hopen]
      dsimp only
      rw [Part.modPort_eq, Part.modBlock_port, Part.port_modPort_self]
      simp only [Part.modPort, Part.modBlock, Part.setPort, Vector.set_set]
      rfl
    rw [donePart, expireGap, if_neg h, hclosed, done]
  · show donePart (expireHold p) s = _
    have hno : ¬(x.holdTimer ≠ none ∧ (x.headHold = .held ∨ x.headHold = .retry)) := by
      rintro ⟨h1, h2⟩
      rcases h with h | ⟨ha, hb⟩
      · exact h1 h
      · exact h2.elim ha hb
    rw [donePart, expireHold, if_neg hno, done]
  · show donePart (expireHold p) s = _
    rw [donePart, expireHold, if_pos ⟨h, hh⟩, done]
    rfl

end Sys2Proof.Machine
end

section
namespace Sys2Proof.Machine
open Sys2Proof.Claims

/-! ### Presence takes a port in ACTIVE or RECONFIG (R57, R130, R174) -/

theorem formReply_congr {s t : Part} (a : SameButNotices s t) (k : SlotNo) (code : ResultCode) (data : List Byte) :
    SameButNotices (formReply k code data s) (formReply k code data t) := by
  obtain ⟨m, b, rfl⟩ := a
  refine ⟨m, b, ?_⟩
  rcases formReply_cases k code data s with ⟨h, hk, e⟩ | ⟨hk, e⟩
  · rcases formReply_cases k code data { s with notices := m, noticesLost := b } with ⟨h', hk', e'⟩ | ⟨hk', -⟩
    · obtain rfl : h = h' := by injection hk.symm.trans hk'
      rw [e, e']
      rfl
    · exact absurd hk (hk' h)
  · rcases formReply_cases k code data { s with notices := m, noticesLost := b } with ⟨h', hk', -⟩ | ⟨-, e'⟩
    · exact absurd hk' (hk h')
    · rw [e, e']

theorem abortSignal_congr {s t : Part} (a : SameButNotices s t) (p : PortNo) :
    SameButNotices (abortSignal p s) (abortSignal p t) := by
  unfold abortSignal
  rw [a.port]
  split
  · exact a
  · exact formReply_congr (a.modPort p _) _ _ _

/-- Port p is in LOCAL_HOLD with its FIFO flushed and its owner demoted (R57). -/
def Part.ownerHeld (s : Part) (p : PortNo) : Part :=
  (s.ownerDemoted p).modPort p fun x => { x with engine := { x.engine with fifo := [] }, portState := .localHold }

/-- What local presence does but for the notices it offers (R57). -/
theorem enterLocalHold_same (p : PortNo) (s : Part) :
    SameButNotices (setCondition p .localPresence (abortSignal p (s.ownerHeld p))) (enterLocalHold p s) := by
  rw [enterLocalHold_eq]
  exact setCondition_congr (abortSignal_congr ((demoteOwner_demoted p s).modPort p _) p) p .localPresence

/-- What local presence does but for its notices does not read the Notice Queue. -/
theorem enterLocalHold_emptied (p : PortNo) (s : Part) : SameButNotices (enterLocalHold p s.emptied) (enterLocalHold p s) := by
  have held : SameButNotices (s.emptied.ownerHeld p) (s.ownerHeld p) := by
    unfold Part.ownerHeld Part.ownerDemoted
    rw [show s.emptied.ownerOf p = s.ownerOf p from rfl]
    cases s.ownerOf p <;> exact ⟨s.notices, s.noticesLost, rfl⟩
  exact (enterLocalHold_same p s.emptied).symm.trans
    ((setCondition_congr (abortSignal_congr held p) p .localPresence).trans (enterLocalHold_same p s))

/-- The port in ACTIVE, all else as it is. -/
def Port.inActive (x : Port) : Port := { x with portState := .active }

theorem retried_inActive (x : Port) : retried x.inActive = (retried x).inActive := by
  unfold retried
  rw [show x.inActive.headHold = x.headHold from rfl]
  split <;> rfl

theorem ownerHeld_inActive (p : PortNo) (s : Part) : (s.modPort p Port.inActive).ownerHeld p = s.ownerHeld p := by
  unfold Part.ownerHeld Part.ownerDemoted
  rw [show (s.modPort p Port.inActive).ownerOf p = s.ownerOf p from rfl]
  cases s.ownerOf p with
  | none => exact Part.modPort_modPort s p _ _
  | some n =>
    let s1 := s.modSession n fun x => { x with role := .observer }
    show ((s1.modPort p Port.inActive).modPort p retried).modPort p _ = (s1.modPort p retried).modPort p _
    rw [Part.modPort_modPort, Part.modPort_modPort, Part.modPort_modPort]
    refine congrArg (s1.modPort p) (funext fun x => ?_)
    rw [retried_inActive]
    rfl

/-- Whether the port was in ACTIVE or in RECONFIG, local presence does the same (R57). -/
theorem enterLocalHold_inActive (p : PortNo) (s : Part) :
    SameButNotices (enterLocalHold p (s.modPort p Port.inActive)) (enterLocalHold p s) := by
  have h := enterLocalHold_same p (s.modPort p Port.inActive)
  rw [ownerHeld_inActive] at h
  exact h.symm.trans (enterLocalHold_same p s)

theorem enterLocalHold_rest (p : PortNo) (s : Part) : ∃ ports sessions slots formed notices lost, enterLocalHold p s =
    { s with ports := ports, sessions := sessions, slots := slots, formed := formed, notices := notices, noticesLost := lost } := by
  have h := (setCondition_same p .localPresence (abortSignal p (s.ownerHeld p))).trans (enterLocalHold_same p s)
  obtain ⟨m, b, e⟩ := h
  rw [abortSignal_eq, Part.ownerHeld, ownerDemoted_eq] at e
  exact ⟨_, _, _, _, m, b, e⟩

/-- What waits for a port in RECONFIG is marked with what presence flushed (R57). -/
theorem takenOver_reconfig {x : Port} (owned : Bool) (h : x.portState = .reconfig) :
    takenOver owned x = (takenOver owned x.inActive).flushLoad x.engine.fifo.length := by
  simp only [takenOver, Port.inActive, Port.flushLoad, h, reduceCtorEq, if_true, if_false]
  rfl

theorem takenOver_inActive {x : Port} (owned : Bool) (h : x.portState ≠ .reconfig) :
    takenOver owned x = takenOver owned x.inActive := by
  simp only [takenOver, Port.inActive, h, reduceCtorEq, if_false]
  rfl

/-- The first notice that is offered finds the last place there is (R181; log 58). -/
theorem offered_first {s : Part} (h : s.notices.length < 32) (n : Notice) (l : List Notice) :
    ∃ m rest, (s.offering (n :: l)).notices = s.notices ++ m :: rest ∧ m.content = n.content := by
  obtain ⟨more, hmore, hcontent, -⟩ := offering_notices s (n :: l)
  obtain ⟨room, hroom⟩ : ∃ room, Config.noticePlaces - s.notices.length = room + 1 :=
    ⟨31 - s.notices.length, by have : Config.noticePlaces = 32 := rfl; omega⟩
  rw [hroom, List.take_succ_cons, List.map_cons] at hcontent
  cases more with
  | nil => cases hcontent
  | cons m rest => exact ⟨m, rest, hmore, (List.cons.inj hcontent).1⟩

/-- Local presence on a port that runs takes it: `lead` is `enterLocalHold`, in RECONFIG with the load marked (R57). -/
theorem presenceTaken {p : PortNo} {s t : Part} (once : ∀ n m, s.owns n p = true → s.owns m p = true → n = m)
    (ht : t = (enterLocalHold p s).setPort p (takenOver (s.ownerOf p).isSome (s.port p))) : PresenceTaken p s t := by
  have hown := ownerOf_iff once
  let v := s.modPort p Port.inActive
  have entered : LocalHoldEntered p v (enterLocalHold p v) :=
    enterLocalHold_entered p (by rw [Part.port_modPort_self]; simp [Port.inActive])
  have same := enterLocalHold_inActive p s
  have hsession (n : SessionNo) : t.session n = if s.owns n p then { s.session n with role := .observer } else s.session n := by
    rw [ht, Part.setPort_session]
    refine Eq.trans (show (enterLocalHold p s).session n = (enterLocalHold p v).session n from ?_) ?_
    · simp only [Part.session, same.sessions]
      rfl
    · rw [entered.session n]
      exact if_congr (hown n) rfl rfl
  have hslots : t.slots = (enterLocalHold p v).slots := by rw [ht]; exact same.slots
  have hformed : t.formed = (enterLocalHold p v).formed := by rw [ht]; exact same.formed
  have hsignal : (v.port p).signal = (s.port p).signal := by rw [Part.port_modPort_self]; rfl
  exact {
    port := by rw [ht, Part.port_setPort_self]
    owner := List.find?_eq_none.2 fun n _ => by
      rw [Part.owns, hsession]
      split_ifs with h
      · simp
      · exact h
    sessions := hsession
    notice := fun n hn hlen => by
      obtain ⟨l, h, -⟩ := enterLocalHold_offers p (asked := fun _ => False) (s := s) fun _ hno => hno.elim
      have hfirst : s.ownerTold p = [sessionEvent n (s.session n) .localPresence none (s.addressOf n)] := by
        rw [Part.ownerTold, (hown n).2 hn]
      rw [hfirst] at h
      obtain ⟨m, rest, hm, hc⟩ := offered_first hlen (sessionEvent n (s.session n) .localPresence none (s.addressOf n)) l
      refine ⟨m, ?_, congrArg Prod.fst hc, (congrArg Prod.snd hc).trans ?_⟩
      · rw [ht, Part.setPort_notices, h.queue]
        exact hm ▸ List.mem_append_right _ List.mem_cons_self
      · rw [← owns_port hn]
        rfl
    aborted := fun g h hg hk => by
      rw [hslots, hformed]
      exact entered.aborted g h (hsignal.trans hg) hk
    noSignal := fun h => by
      rw [hslots, hformed]
      exact entered.noSignal (hsignal.trans h)
    others := fun q hq => by
      rw [ht, Part.port_setPort_ne _ p q _ hq.symm, same.port, entered.others q hq, Part.port_modPort_ne _ _ _ _ hq.symm]
    rest := by
      obtain ⟨ports, sessions, slots, formed, notices, lost, e⟩ := enterLocalHold_rest p s
      rw [ht, e]
      rfl }

theorem enterLocalHold_port (p : PortNo) (s : Part) :
    (enterLocalHold p s).port p = takenOver (s.ownerOf p).isSome (s.port p).inActive := by
  have entered : LocalHoldEntered p (s.modPort p Port.inActive) (enterLocalHold p (s.modPort p Port.inActive)) :=
    enterLocalHold_entered p (by rw [Part.port_modPort_self]; simp [Port.inActive])
  have h := entered.port
  rw [Part.port_modPort_self] at h
  exact ((enterLocalHold_inActive p s).port p).trans h

theorem enterLocalHold_taken {p : PortNo} {s : Part} (once : ∀ n m, s.owns n p = true → s.owns m p = true → n = m)
    (hr : (s.port p).portState ≠ .reconfig) : PresenceTaken p s (enterLocalHold p s) :=
  presenceTaken once (by rw [takenOver_inActive _ hr, ← enterLocalHold_port, Part.setPort_port_self])

theorem holdReconfig_eq (p : PortNo) (s : Part) :
    holdReconfig p s = (enterLocalHold p s).modPort p (·.flushLoad (s.port p).engine.fifo.length) := rfl

theorem holdReconfig_taken {p : PortNo} {s : Part} (once : ∀ n m, s.owns n p = true → s.owns m p = true → n = m)
    (hr : (s.port p).portState = .reconfig) : PresenceTaken p s (holdReconfig p s) :=
  presenceTaken once (by rw [takenOver_reconfig _ hr, ← enterLocalHold_port, holdReconfig_eq, Part.modPort_eq])

/-- Presence brings the load to its moment where the register is empty (R57). -/
theorem holdReconfig_leads {p : PortNo} {l : PendingLoad} {s : Part} (hr : (s.port p).portState = .reconfig)
    (hl : (s.port p).pendingLoad = some l) (hs : (s.port p).engine.shift = .empty) (hw : s.waitList = []) :
    LeadsToLoad p { l with flushed := some (l.flushed.getD (s.port p).engine.fifo.length) } (holdReconfig p) s := by
  have hport : (holdReconfig p s).port p = takenOver (s.ownerOf p).isSome (s.port p) := by
    rw [takenOver_reconfig _ hr, ← enterLocalHold_port, holdReconfig_eq, Part.port_modPort_self]
  have hrest := enterLocalHold_rest p s
  exact {
    alike := fun t a => by
      rw [holdReconfig_eq, holdReconfig_eq, a.own]
      exact (enterLocalHold_alike a).modOwn _
    offers := fun asked t _ ha => by
      obtain ⟨m, hm, hlen⟩ := enterLocalHold_offers p ha
      have marked : Unheard p (enterLocalHold p t) (holdReconfig p t) := by
        rw [holdReconfig_eq]
        exact .modPort p p _ rfl fun h => absurd rfl h
      refine ⟨t.ownerTold p ++ m, hm.then marked, ?_⟩
      have := t.ownerTold_length p
      rw [List.length_append]
      omega
    load := by
      rw [hport]
      simp only [takenOver, hr, if_true, hl, Option.map_some]
    shift := by rw [hport]; exact hs
    waitList := by
      obtain ⟨ports, sessions, slots, formed, notices, lost, e⟩ := hrest
      rw [holdReconfig_eq, Part.modPort_waitList, e]
      exact hw
    supervisor := by
      obtain ⟨ports, sessions, slots, formed, notices, lost, e⟩ := hrest
      rw [holdReconfig_eq, e]
      rfl }

/-! ### The debounce expires (R56 to R58) -/

/-- The debounced DSR has taken the raw level (R56). -/
def Port.debounced (x : Port) : Port := { x with debounceTimer := none, dsrDebounced := x.pins.dsr }

theorem expireDebounce_running {p : PortNo} {s : Part} (h : (s.port p).debounceTimer ≠ none) : expireDebounce p s =
    if (s.port p).debounced.presence && !(s.port p).presence then presenceAsserts p (s.modPort p Port.debounced)
    else s.modPort p Port.debounced := by
  refine (if_neg h).trans ?_
  have hport : (s.modPort p Port.debounced).port p = (s.port p).debounced := Part.port_modPort_self s p _
  rw [← hport]
  rfl

theorem Port.debounced_newly (x : Port) : (x.debounced.presence && !x.presence) = true ↔
    x.profile.presenceSource = .dsr ∧ x.dsrDebounced = false ∧ x.pins.dsr = true := by
  have h : x.debounced.profile = x.profile := rfl
  have hd : x.debounced.dsrDebounced = x.pins.dsr := rfl
  rw [Bool.and_eq_true, Bool.not_eq_true', ← Bool.not_eq_true, Port.presence_iff, Port.presence_iff, h, hd, ← Bool.not_eq_true]
  tauto

theorem presenceAsserts_disabled {p : PortNo} {s : Part} (h : (s.port p).portState = .disabled) : presenceAsserts p s = s := by
  unfold presenceAsserts
  rw [h]

theorem presenceAsserts_localHold {p : PortNo} {s : Part} (h : (s.port p).portState = .localHold) :
    presenceAsserts p s = setCondition p .localPresence s := by
  unfold presenceAsserts
  rw [h]

theorem presenceAsserts_active {p : PortNo} {s : Part} (h : (s.port p).portState = .active) :
    presenceAsserts p s = (enterLocalHold p s).modPort p Port.load := by
  unfold presenceAsserts
  rw [h]

theorem presenceAsserts_sending {p : PortNo} {s : Part} (h : (s.port p).portState = .reconfig)
    (hs : (s.port p).engine.shift ≠ .empty) : presenceAsserts p s = (holdReconfig p s).modPort p Port.load := by
  unfold presenceAsserts
  rw [h]
  exact congrArg (Part.modPort · p Port.load) (if_neg hs)

theorem presenceAsserts_sent {p : PortNo} {s : Part} (h : (s.port p).portState = .reconfig)
    (hs : (s.port p).engine.shift = .empty) :
    presenceAsserts p s = (inTableOrder p (loadEvent p (holdReconfig p)) s).modPort p Port.load := by
  unfold presenceAsserts
  rw [h]
  exact congrArg (Part.modPort · p Port.load) (if_pos hs)

/-- A notice of no condition that an event forms first keeps its place and takes the last one there is (log 58). -/
theorem inTableOrder_first {p : PortNo} {f : Part → Part} {s : Part} {n : Notice} {rest : List Notice}
    (h : (f s.emptied).notices = n :: rest) (hn : n.conditionOf p = none) (hroom : s.notices.length < 32) :
    ∃ m ∈ (inTableOrder p f s).notices, m.content = n.content := by
  obtain ⟨l, hl⟩ : ∃ l, eventNotices p f s = n :: l := by
    rw [eventNotices, h]
    exact ⟨_, if_neg (by simp [hn])⟩
  obtain ⟨m, more, hm, hc⟩ := offered_first hroom n l
  refine ⟨m, ?_, hc⟩
  rw [(inTableOrder_queue p f s).1, hl, hm]
  exact List.mem_append_right _ List.mem_cons_self

/-- A load that has come to its moment keeps the notices that lie before it. -/
theorem LeadsToLoad.notices {p : PortNo} {l : PendingLoad} {lead : Part → Part} {s : Part} (h : LeadsToLoad p l lead s)
    (hf : l.flushed ≠ none) : ∃ more, (loadEvent p lead s).notices = (lead s).notices ++ more := by
  rw [h.event hf (.refl p s)]
  obtain ⟨more, hmore, -⟩ := (finishLoad_tells (asked := fun _ => False) h.load h.waitList fun _ hno => hno.elim).told
  exact ⟨more, hmore⟩

/-- The event that presence brings on a port in RECONFIG offers the owner's notice first (log 58). -/
theorem holdReconfig_tells {p : PortNo} {l : PendingLoad} {s : Part} {n : SessionNo}
    (once : ∀ n m, s.owns n p = true → s.owns m p = true → n = m) (leads : LeadsToLoad p l (holdReconfig p) s.emptied)
    (hf : l.flushed ≠ none) (hn : s.owns n p = true) (hroom : s.notices.length < 32) :
    ∃ m ∈ (inTableOrder p (loadEvent p (holdReconfig p)) s).notices, m.dst = s.addressOf n ∧
      m.body = .sessionEvent n (s.session n).tag p .localPresence none := by
  let told := sessionEvent n (s.session n) .localPresence none (s.addressOf n)
  have hfirst : s.emptied.ownerTold p = [told] := by
    have : s.emptied.ownerOf p = some n := (ownerOf_iff (s := s) once n).2 hn
    rw [Part.ownerTold, this]
    rfl
  obtain ⟨k, h, -⟩ := enterLocalHold_offers p (asked := fun _ => False) (s := s.emptied) fun _ hno => hno.elim
  rw [hfirst] at h
  obtain ⟨m, rest, hm, hc⟩ := offered_first (s := s.emptied) (show 0 < 32 by decide) told k
  obtain ⟨more, hmore⟩ := leads.notices hf
  have hevent : (loadEvent p (holdReconfig p) s.emptied).notices = m :: (rest ++ more) := by
    rw [hmore, holdReconfig_eq, Part.modPort_notices, h.queue]
    exact congrArg (· ++ more) hm
  have hbody : m.body = .sessionEvent n (s.session n).tag p .localPresence none := by
    rw [← owns_port hn]
    exact congrArg Prod.snd hc
  obtain ⟨m', hm', hc'⟩ := inTableOrder_first (p := p) hevent (by simp [Notice.conditionOf, hbody]) hroom
  exact ⟨m', hm', congrArg Prod.fst (hc'.trans hc), (congrArg Prod.snd hc').trans hbody⟩

/-- Presence that takes a port in RECONFIG and the load it brings to its moment are one event (R57, R179; log 15). -/
theorem presence_finishes {p : PortNo} {l : PendingLoad} {s t u : Part}
    (once : ∀ n m, t.owns n p = true → t.owns m p = true → n = m) (hr : (t.port p).portState = .reconfig)
    (hl : (t.port p).pendingLoad = some l) (hs : (t.port p).engine.shift = .empty) (hw : t.waitList = [])
    (hq : t.notices = s.notices) (hc : (t.port p).conditions = (s.port p).conditions) (hm : (t.port p).profile = (s.port p).profile)
    (hsup : t.supervisor = s.supervisor) (hu : u = presenceAsserts p t) :
    LoadFinished p { l with flushed := some (l.flushed.getD (t.port p).engine.fifo.length) } (holdReconfig p t) u ∧
      (u.port p).portState = .localHold ∧ NoticedInOrder p s u ∧
      ∀ n, t.owns n p = true → t.notices.length < 32 → ∃ m ∈ u.notices, m.dst = t.addressOf n ∧
        m.body = .sessionEvent n (t.session n).tag p .localPresence none := by
  let l' : PendingLoad := { l with flushed := some (l.flushed.getD (t.port p).engine.fifo.length) }
  have hf : l'.flushed ≠ none := by simp [l']
  have leads : LeadsToLoad p l' (holdReconfig p) t.emptied := holdReconfig_leads (s := t.emptied) hr hl hs hw
  have taken : PresenceTaken p t.emptied (holdReconfig p t.emptied) := holdReconfig_taken (s := t.emptied) once hr
  have hold : ((holdReconfig p t.emptied).port p).portState = .localHold := by rw [taken.port]; rfl
  have hfin : LoadFinished p l' (holdReconfig p t.emptied) (finishLoad p (holdReconfig p t.emptied)) :=
    finishLoad_finished leads.load leads.waitList fun hmet => absurd hold hmet.2.2.2
  have hevent : SameButNotices (finishLoad p (holdReconfig p t.emptied)) (inTableOrder p (loadEvent p (holdReconfig p)) t) := by
    rw [← leads.event hf (.refl p _)]
    exact inTableOrder_same p _ t
  have loaded : u = inTableOrder p (loadEvent p (holdReconfig p)) t := by
    have hport : ((inTableOrder p (loadEvent p (holdReconfig p)) t).port p).load =
        (inTableOrder p (loadEvent p (holdReconfig p)) t).port p := by
      rw [hevent.port, finishLoad, leads.load]
      dsimp only
      rw [Part.port_modPort_self, Port.load_load]
    rw [hu, presenceAsserts_sent hr hs, Part.modPort_eq, hport, Part.setPort_port_self]
  have hsame : SameButNotices (holdReconfig p t.emptied) (holdReconfig p t) :=
    (enterLocalHold_emptied p t).modPort p (·.flushLoad (t.port p).engine.fifo.length)
  have hfin' : LoadFinished p l' (holdReconfig p t) u := hsame.loadFinished (loaded ▸ hevent) hfin
  refine ⟨hfin', ?_, ?_, fun n hn hroom => ?_⟩
  · have hold' : ((holdReconfig p t).port p).portState = .localHold := (congrArg Port.portState (hsame.port p)).trans hold
    cases hacc : accounting (holdReconfig p t) p l'.entry with
    | some code =>
      obtain ⟨-, hstate, -⟩ := hfin'.refused code hacc
      rw [hstate, hold']
      rfl
    | none =>
      obtain ⟨-, -, -, -, -, -, -, -, -, -, hstate, -⟩ := hfin'.applied hacc
      rw [hstate, hold', if_neg (by simp : ¬PortState.localHold = .reconfig), ite_self]
  · exact leads.noticedInOrder hf hfin hq hc hm hsup (loaded ▸ .refl _) (loaded ▸ rfl)
  · rw [loaded]
    exact holdReconfig_tells once leads hf hn hroom

/-- Settles O53: by the state of the port in which the debounced DSR asserts presence, each by its own lemma. -/
theorem presenceTakesThePort : Obligations.PresenceTakesThePort := by
  unfold Obligations.PresenceTakesThePort
  intro s p x y newly
  let t := s.part.setPort p y
  have hport : t.port p = y := Part.port_setPort_self s.part p y
  have ends (e : Part) (h : expireDebounce p s.part = e) : EndsPart (.dsrDebounceExpiry p) s e := by
    show donePart (expireDebounce p) s = _
    rw [donePart, h, done]
  refine ⟨fun h => ends _ (if_pos h), fun ht => ?_⟩
  have hexpire := expireDebounce_running ht
  have hnewly := x.debounced_newly
  have hstate : (t.port p).portState = x.portState := by rw [hport]
  have takes (h : newly) : expireDebounce p s.part = presenceAsserts p t := hexpire.trans (if_pos (hnewly.2 h))
  refine ⟨fun h => ends _ ?_, fun hn hl => ends _ ?_, fun hn owned hx => ?_, fun l hn owned hr hs hl hw => ?_⟩
  · rcases h with h | h
    · exact hexpire.trans (if_neg fun hc => h (hnewly.1 hc))
    · refine hexpire.trans ?_
      split_ifs
      · exact presenceAsserts_disabled (hstate.trans h)
      · rfl
  · rw [takes hn, presenceAsserts_localHold (hstate.trans hl)]
  · have once (n m : SessionNo) : t.owns n p = true → t.owns m p = true → n = m := owned.once n m p
    rcases hx with ha | ⟨hr, hs⟩
    · have hta := hstate.trans ha
      refine ⟨{ s with part := (enterLocalHold p t).modPort p Port.load }, ends _ ?_, enterLocalHold p t,
        enterLocalHold_taken once (by rw [hta]; simp), rfl, rfl, rfl⟩
      rw [takes hn, presenceAsserts_active hta]
    · have htr := hstate.trans hr
      refine ⟨{ s with part := (holdReconfig p t).modPort p Port.load }, ends _ ?_, holdReconfig p t,
        holdReconfig_taken once htr, rfl, rfl, rfl⟩
      rw [takes hn, presenceAsserts_sending htr (by rw [hport]; exact hs)]
  · have once (n m : SessionNo) : t.owns n p = true → t.owns m p = true → n = m := owned.once n m p
    have htr := hstate.trans hr
    obtain ⟨hfin, hheld, hordered, htold⟩ := presence_finishes (s := s.part) (t := t) once htr (by rw [hport]; exact hl)
      (by rw [hport]; exact hs) hw rfl (by rw [hport]) (by rw [hport]) rfl rfl
    rw [hport] at hfin
    exact ⟨{ s with part := presenceAsserts p t }, ends _ (takes hn), holdReconfig p t, holdReconfig_taken once htr, hfin, hheld,
      hordered, htold, rfl, rfl⟩

end Sys2Proof.Machine
end

section
namespace Sys2Proof.Machine
open Sys2Proof.Claims

/-! ### Delayed replies formed one after another (R14) -/

/-- A delayed reply: its slot, its result code and its data. -/
abbrev DelayedReply := SlotNo × ResultCode × List Byte

/-- The replies are formed one after another. -/
def Part.replying (s : Part) (l : List DelayedReply) : Part := l.foldl (fun s r => formReply r.1 r.2.1 r.2.2 s) s

/-- From part `s` to part `t` the replies of `l` have been formed, and the Reply Queue is else as it was. -/
def Forms (l : List DelayedReply) (s t : Part) : Prop := t.slots = (s.replying l).slots ∧ t.formed = (s.replying l).formed

theorem formReply_queue {s t : Part} (k : SlotNo) (code : ResultCode) (data : List Byte) (h : t.slots = s.slots)
    (hf : t.formed = s.formed) : (formReply k code data t).slots = (formReply k code data s).slots ∧
      (formReply k code data t).formed = (formReply k code data s).formed := by
  have hslot : t.slot k = s.slot k := by rw [Part.slot, Part.slot, h]
  unfold formReply
  rw [hslot]
  split
  · exact ⟨congrArg (Vector.set · k _) h, congrArg (· ++ [k]) hf⟩
  · exact ⟨h, hf⟩
  · exact ⟨h, hf⟩

theorem replying_congr {s t : Part} (l : List DelayedReply) (h : t.slots = s.slots) (hf : t.formed = s.formed) :
    (t.replying l).slots = (s.replying l).slots ∧ (t.replying l).formed = (s.replying l).formed := by
  induction l generalizing s t with
  | nil => exact ⟨h, hf⟩
  | cons r rest ih =>
    obtain ⟨h', hf'⟩ := formReply_queue r.1 r.2.1 r.2.2 h hf
    exact ih h' hf'

theorem Forms.nothing {s t : Part} (h : t.slots = s.slots) (hf : t.formed = s.formed) : Forms [] s t := ⟨h, hf⟩

theorem Forms.trans {l m : List DelayedReply} {s t u : Part} (a : Forms l s t) (b : Forms m t u) : Forms (l ++ m) s u := by
  obtain ⟨h, hf⟩ := replying_congr m a.1 a.2
  have e : s.replying (l ++ m) = (s.replying l).replying m := List.foldl_append
  exact ⟨by rw [e, ← h]; exact b.1, by rw [e, ← hf]; exact b.2⟩

/-- What forms no reply may stand between. -/
theorem Forms.then {l : List DelayedReply} {s t u : Part} (a : Forms l s t) (b : Forms [] t u) : Forms l s u := by
  have h := a.trans b
  rwa [List.append_nil] at h

theorem Forms.after {l : List DelayedReply} {s t u : Part} (a : Forms [] s t) (b : Forms l t u) : Forms l s u := a.trans b

theorem formReply_forms (k : SlotNo) (code : ResultCode) (data : List Byte) (s : Part) :
    Forms [(k, code, data)] s (formReply k code data s) := ⟨rfl, rfl⟩

theorem QueueFrame.forms {s t : Part} (h : QueueFrame s t) : Forms [] s t := ⟨h.slots, h.formed⟩

theorem SameButNotices.forms {s t : Part} (h : SameButNotices s t) : Forms [] s t := ⟨h.slots, h.formed⟩

/-- Replies in reserved slots of their own are all formed, in their order, and no other slot is touched (R14). -/
theorem Forms.formed {l : List DelayedReply} {s t : Part} (h : Forms l s t) (hnodup : (l.map Prod.fst).Nodup)
    (hres : ∀ r ∈ l, ∃ h, s.slot r.1 = .reserved h) : t.formed = s.formed ++ l.map Prod.fst ∧
      (∀ r ∈ l, ∀ h, s.slot r.1 = .reserved h → t.slot r.1 = .formed h r.2.1 r.2.2) ∧
      ∀ k, k ∉ l.map Prod.fst → t.slot k = s.slot k := by
  induction l generalizing s with
  | nil =>
    refine ⟨h.2.trans (List.append_nil _).symm, fun r hr => absurd hr List.not_mem_nil, fun k _ => ?_⟩
    rw [Part.slot, h.1]
    rfl
  | cons r rest ih =>
    rw [List.map_cons, List.nodup_cons] at hnodup
    obtain ⟨header, hr⟩ := hres r List.mem_cons_self
    let s1 := formReply r.1 r.2.1 r.2.2 s
    have e : s1 = { s.setSlot r.1 (.formed header r.2.1 r.2.2) with formed := s.formed ++ [r.1] } := by
      show formReply _ _ _ _ = _
      unfold formReply
      rw [hr]
    have hself : s1.slot r.1 = .formed header r.2.1 r.2.2 := by rw [e]; exact Part.slot_setSlot_self s r.1 _
    have hne (k : SlotNo) (hk : k ≠ r.1) : s1.slot k = s.slot k := by rw [e]; exact Part.slot_setSlot_ne s r.1 k _ hk.symm
    have hother (d : DelayedReply) (hd : d ∈ rest) : d.1 ≠ r.1 := fun hc =>
      hnodup.1 (hc ▸ List.mem_map_of_mem (f := Prod.fst) hd)
    obtain ⟨hformed, hslot, hstands⟩ := ih (s := s1) h hnodup.2 fun d hd => by
      rw [hne _ (hother d hd)]
      exact hres d (List.mem_cons_of_mem _ hd)
    refine ⟨?_, fun d hd g hg => ?_, fun k hk => ?_⟩
    · rw [hformed, e, List.map_cons, List.append_assoc]
      rfl
    · rcases List.mem_cons.1 hd with rfl | hd
      · obtain rfl : header = g := by injection hr.symm.trans hg
        rw [hstands _ hnodup.1, hself]
      · exact hslot d hd g (by rw [hne _ (hother d hd)]; exact hg)
    · rw [List.map_cons, List.mem_cons, not_or] at hk
      rw [hstands k hk.2, hne k hk.1]

end Sys2Proof.Machine
end

section
namespace Sys2Proof.Machine
open Sys2Proof.Claims

/-! ### Holds dropped one after another (R63, R64) -/

/-- The holds are dropped one after another. -/
def Part.dropping (s : Part) (l : List Nat) : Part := l.foldl (fun s id => dropHold id s) s

/-- The Cell Store's records, its free list and its accounts are the same. -/
structure SameStore (s t : Part) : Prop where
  blocks : t.blocks = s.blocks
  freeList : t.freeList = s.freeList
  tapUse : t.tapUse = s.tapUse
  portUse : ∀ q, (t.port q).portUse = (s.port q).portUse

theorem SameStore.refl (s : Part) : SameStore s s := ⟨rfl, rfl, rfl, fun _ => rfl⟩

theorem SameStore.trans {s t u : Part} (a : SameStore s t) (b : SameStore t u) : SameStore s u :=
  ⟨b.blocks.trans a.blocks, b.freeList.trans a.freeList, b.tapUse.trans a.tapUse, fun q => (b.portUse q).trans (a.portUse q)⟩

theorem SameStore.block {s t : Part} (a : SameStore s t) (id : Nat) : t.block id = s.block id := by
  rw [Part.block, a.blocks, Part.block]

theorem SameStore.modPort (s : Part) (p : PortNo) {f : Port → Port} (h : (f (s.port p)).portUse = (s.port p).portUse) :
    SameStore s (s.modPort p f) where
  blocks := rfl
  freeList := rfl
  tapUse := rfl
  portUse q := by
    rw [Part.port_modPort]
    split_ifs with hq
    · rw [h, hq]
    · rfl

theorem SameButNotices.sameStore {s t : Part} (h : SameButNotices s t) : SameStore s t := by
  obtain ⟨m, b, rfl⟩ := h
  exact ⟨rfl, rfl, rfl, fun _ => rfl⟩

theorem paused_portUse (x : Port) : (paused x).portUse = x.portUse := by
  rcases paused_cases x with ⟨-, e⟩ | ⟨-, -, -, e⟩ | ⟨-, -, -, e⟩ <;> rw [e]
  · exact Port.load_portUse _
  · exact Port.load_portUse _

theorem evalPause_sameStore (p : PortNo) (s : Part) : SameStore s (evalPause p s) :=
  (SameStore.modPort s p (paused_portUse _)).trans (evalPause_same p s).sameStore

/-- What is left of the accounts when block `b` is freed (R64). -/
structure StoreFreed (b : Block) (s t : Part) : Prop where
  blocks : t.blocks = s.blocks.filter fun c => c.id != b.id
  freeList : t.freeList = s.freeList ++ b.cells
  tapUse : t.tapUse = s.tapUse - if b.kind = .keys then b.cells.length else 0
  portUse : ∀ q, (t.port q).portUse = (s.port q).portUse - if b.kind = .output ∧ b.port = q then b.cells.length else 0

theorem freeBlock_freed (b : Block) (s : Part) : StoreFreed b s (freeBlock b s) := by
  cases h : b.kind with
  | keys =>
    rw [freeBlock_keys h]
    exact ⟨rfl, rfl, by rw [h]; rfl, fun q => by rw [h]; rfl⟩
  | output =>
    rw [freeBlock_output h]
    have hs := evalPause_sameStore b.port (s.cellsFreed b)
    refine ⟨hs.blocks, hs.freeList, by rw [h]; exact hs.tapUse, fun q => (hs.portUse q).trans ?_⟩
    rw [h]
    have hport : (s.cellsFreed b).port q =
        (s.modPort b.port fun x => { x with portUse := x.portUse - b.cells.length }).port q := rfl
    rw [hport, Part.port_modPort]
    by_cases hq : b.port = q
    · simp [hq]
    · simp [hq]

theorem dropHold_gone {id : Nat} {s : Part} (h : s.block id = none) : dropHold id s = s := by
  unfold dropHold
  rw [h]

theorem dropHold_last {id : Nat} {s : Part} {b : Block} (h : s.block id = some b) (hr : b.refCount ≤ 1) :
    dropHold id s = freeBlock b s := by
  unfold dropHold
  rw [h]
  exact if_pos hr

theorem dropHold_held {id : Nat} {s : Part} {b : Block} (h : s.block id = some b) (hr : ¬b.refCount ≤ 1) :
    dropHold id s = s.modBlock id fun b => { b with refCount := b.refCount - 1 } := by
  unfold dropHold
  rw [h]
  exact if_neg hr

theorem StoreFreed.congr {b : Block} {s t u v : Part} (h : SameStore s t) (a : StoreFreed b s u) (c : StoreFreed b t v) :
    SameStore u v where
  blocks := by rw [a.blocks, c.blocks, h.blocks]
  freeList := by rw [a.freeList, c.freeList, h.freeList]
  tapUse := by rw [a.tapUse, c.tapUse, h.tapUse]
  portUse q := by rw [a.portUse, c.portUse, h.portUse]

theorem dropHold_congr {s t : Part} (h : SameStore s t) (id : Nat) : SameStore (dropHold id s) (dropHold id t) := by
  cases hb : s.block id with
  | none => rwa [dropHold_gone hb, dropHold_gone ((h.block id).trans hb)]
  | some b =>
    by_cases hr : b.refCount ≤ 1
    · rw [dropHold_last hb hr, dropHold_last ((h.block id).trans hb) hr]
      exact (freeBlock_freed b s).congr h (freeBlock_freed b t)
    · rw [dropHold_held hb hr, dropHold_held ((h.block id).trans hb) hr]
      exact ⟨congrArg (List.map _) h.blocks, h.freeList, h.tapUse, h.portUse⟩

theorem dropping_congr {s t : Part} (h : SameStore s t) (l : List Nat) : SameStore (s.dropping l) (t.dropping l) := by
  induction l generalizing s t with
  | nil => exact h
  | cons id rest ih => exact ih (dropHold_congr h id)

/-- While no port waits for a cell, from part `s` to part `t` the holds of `l` have been dropped, and the store is else as it
was; still no port waits. -/
structure Drops (l : List Nat) (s t : Part) : Prop where
  store : SameStore (s.dropping l) t
  memory : t.mem = s.mem
  waitList : t.waitList = []

theorem SameStore.drops {s t : Part} (h : SameStore s t) (hm : t.mem = s.mem) (hw : t.waitList = []) : Drops [] s t := ⟨h, hm, hw⟩

theorem Drops.trans {l m : List Nat} {s t u : Part} (a : Drops l s t) (b : Drops m t u) : Drops (l ++ m) s u where
  store := by
    have e : s.dropping (l ++ m) = (s.dropping l).dropping m := List.foldl_append
    rw [e]
    exact (dropping_congr a.store m).trans b.store
  memory := b.memory.trans a.memory
  waitList := b.waitList

theorem Drops.then {l : List Nat} {s t u : Part} (a : Drops l s t) (b : Drops [] t u) : Drops l s u := by
  have h := a.trans b
  rwa [List.append_nil] at h

theorem Drops.after {l : List Nat} {s t u : Part} (a : Drops [] s t) (b : Drops l t u) : Drops l s u := a.trans b

theorem releaseHold_drops (id : Nat) {s : Part} (hw : s.waitList = []) : Drops [id] s (releaseHold id s) where
  store := by
    rw [releaseHold_of_none_waits id hw]
    exact ⟨rfl, rfl, rfl, fun _ => rfl⟩
  memory := (releaseHold_mem id hw).1
  waitList := (releaseHold_mem id hw).2

theorem foldl_releaseHold_drops (l : List Nat) {s : Part} (hw : s.waitList = []) :
    Drops l s (l.foldl (fun s id => releaseHold id s) s) := by
  induction l generalizing s with
  | nil => exact (SameStore.refl s).drops rfl hw
  | cons id rest ih => exact (releaseHold_drops id hw).trans (ih (releaseHold_mem id hw).2)

theorem reportRelease_drops (q : QueueNo) {s : Part} (hw : s.waitList = []) : Drops [] s (reportRelease q s) := by
  have retries (p : PortNo) : Drops [] s (retryHead p s) :=
    (SameStore.modPort s p (by split <;> rfl)).drops rfl hw
  unfold reportRelease
  split
  · exact (SameStore.refl s).drops rfl hw
  · split
    · exact retries _
    · exact (SameStore.refl s).drops rfl hw

theorem releaseOldest_drops (q : QueueNo) (r : Ref) {s : Part} (hw : s.waitList = []) : Drops [r.block] s (releaseOldest q r s) := by
  have taken : Drops [] s (s.setQueue q (s.queue q).tail) := SameStore.drops ⟨rfl, rfl, rfl, fun _ => rfl⟩ rfl hw
  have dropped := taken.after (releaseHold_drops r.block (s := s.setQueue q (s.queue q).tail) hw)
  exact dropped.then (reportRelease_drops q dropped.waitList)

theorem clearQueue_drops (q : QueueNo) {s : Part} (hw : s.waitList = []) : Drops ((s.queue q).map Ref.block) s (clearQueue q s) := by
  have fold (l : List Ref) {s : Part} (hw : s.waitList = []) :
      Drops (l.map Ref.block) s (l.foldl (fun s r => releaseOldest q r s) s) := by
    induction l generalizing s with
    | nil => exact (SameStore.refl s).drops rfl hw
    | cons r rest ih =>
      have h := releaseOldest_drops q r hw
      exact h.trans (ih h.waitList)
  exact fold _ hw

end Sys2Proof.Machine
end

section
namespace Sys2Proof.Machine
open Sys2Proof.Claims

/-! ### What dropping holds leaves of the Cell Store (R63, R64) -/

theorem find?_filter_ne {l : List Block} {k : Nat} (id : Nat) : (l.filter fun c => c.id != id).find? (fun b => b.id == k) =
    if k = id then none else l.find? fun b => b.id == k := by
  rw [List.find?_filter]
  split_ifs with h
  · subst h
    exact List.find?_eq_none.2 fun b _ => by simp
  · refine List.find?_congr fun b _ => ?_
    by_cases hb : b.id = k
    · simp [hb, h]
    · simp [hb]

theorem StoreFreed.block {b : Block} {s t : Part} (h : StoreFreed b s t) (k : Nat) :
    t.block k = if k = b.id then none else s.block k := by
  rw [Part.block, h.blocks, find?_filter_ne]
  rfl

theorem holdsGone_congr {count count' : Nat → Nat} {s t : Part} (h : HoldsGone count s t)
    (e : ∀ k b, s.block k = some b → count k = count' k ∨
      (0 < count k ∧ b.refCount ≤ count k ∧ 0 < count' k ∧ b.refCount ≤ count' k)) : HoldsGone count' s t where
  released k b hb := by
    obtain ⟨h1, h2, h3⟩ := h.released k b hb
    rcases e k b hb with hc | ⟨hp, hr, hp', hr'⟩
    · rw [← hc]
      exact ⟨h1, h2, h3⟩
    · exact ⟨fun h0 => by omega, fun _ hlt => by omega, fun _ _ => h3 hp hr⟩
  freed := by
    obtain ⟨freed, hnodup, hmem, haccounts⟩ := h.freed
    refine ⟨freed, hnodup, fun b => (hmem b).trans (and_congr_right fun hb => ?_), haccounts⟩
    rcases e b.id b hb with hc | ⟨hp, hr, hp', hr'⟩
    · rw [hc]
    · exact ⟨fun _ => ⟨hp', hr'⟩, fun _ => ⟨hp, hr⟩⟩

theorem holdsGone_store {count : Nat → Nat} {s t u : Part} (h : HoldsGone count s t) (a : SameStore t u) : HoldsGone count s u where
  released k b hb := by
    rw [a.block]
    exact h.released k b hb
  freed := by
    obtain ⟨freed, hnodup, hmem, hfree, htap, huse⟩ := h.freed
    exact ⟨freed, hnodup, hmem, a.freeList.trans hfree, a.tapUse.trans htap, fun q => (a.portUse q).trans (huse q)⟩

/-- A block that is still there has lost its holds and nothing else. -/
theorem holdsGone_survivor {count : Nat → Nat} {s t : Part} (h : HoldsGone count s t) {k : Nat} {b c : Block}
    (hb : s.block k = some b) (hc : t.block k = some c) :
    c = { b with refCount := b.refCount - count k } ∧ (count k = 0 ∨ count k < b.refCount) := by
  obtain ⟨h1, h2, h3⟩ := h.released k b hb
  rcases Nat.eq_zero_or_pos (count k) with h0 | hpos
  · refine ⟨?_, .inl h0⟩
    rw [h0]
    exact Option.some.inj (hc.symm.trans (h1 h0))
  · by_cases hlt : count k < b.refCount
    · exact ⟨Option.some.inj (hc.symm.trans (h2 hpos hlt)), .inr hlt⟩
    · have := h3 hpos (Nat.not_lt.1 hlt)
      rw [hc] at this
      cases this

/-- One more hold on block `id`. -/
abbrev countMore (count : Nat → Nat) (id : Nat) : Nat → Nat := fun k => count k + if k = id then 1 else 0

theorem countMore_self (count : Nat → Nat) (id : Nat) : countMore count id id = count id + 1 := by simp [countMore]
theorem countMore_ne (count : Nat → Nat) {id k : Nat} (h : k ≠ id) : countMore count id k = count k := by simp [countMore, h]

/-- The last hold of a block goes: it is freed. -/
theorem holdsGone_frees {count : Nat → Nat} {s t u : Part} (h : HoldsGone count s t) {id : Nat} {b c : Block}
    (hb : s.block id = some b) (hc : t.block id = some c) (hr : c.refCount ≤ 1) (hu : StoreFreed c t u) :
    HoldsGone (countMore count id) s u := by
  obtain ⟨rfl, hcount⟩ := holdsGone_survivor h hb hc
  have hid : b.id = id := Part.block_id hb
  have hr' : b.refCount ≤ count id + 1 := by dsimp only at hr; omega
  obtain ⟨freed, hnodup, hmem, hfree, htap, huse⟩ := h.freed
  have hnew : ∀ d ∈ freed, d.id ≠ id := fun d hd he => by
    obtain ⟨hd1, hd2, hd3⟩ := (hmem d).1 hd
    rw [he, hb] at hd1
    obtain rfl := Option.some.inj hd1
    rw [he] at hd2 hd3
    omega
  refine ⟨fun k d hd => ?_, freed ++ [b], ?_, fun d => ?_, ?_, ?_, fun q => ?_⟩
  · rw [hu.block]
    by_cases hk : k = id
    · subst hk
      obtain rfl := Option.some.inj (hb.symm.trans hd)
      rw [countMore_self, if_pos hid.symm]
      exact ⟨fun h0 => by omega, fun _ hlt => by omega, fun _ _ => rfl⟩
    · rw [countMore_ne _ hk, if_neg (show ¬k = b.id by rw [hid]; exact hk)]
      exact h.released k d hd
  · rw [List.map_append, List.nodup_append]
    refine ⟨hnodup, List.nodup_singleton _, fun a ha d hd => ?_⟩
    obtain ⟨e, he, rfl⟩ := List.mem_map.1 ha
    rw [List.map_singleton, List.mem_singleton] at hd
    rw [hd, hid]
    exact hnew e he
  · rw [List.mem_append, List.mem_singleton, hmem]
    by_cases hd : d.id = id
    · rw [hd, countMore_self, hb]
      refine ⟨?_, fun hd' => .inr (Option.some.inj hd'.1).symm⟩
      rintro (⟨hd1, hd2, hd3⟩ | rfl)
      · exact ⟨hd1, Nat.succ_pos _, by omega⟩
      · exact ⟨rfl, Nat.succ_pos _, hr'⟩
    · rw [countMore_ne _ hd]
      exact or_iff_left fun he => hd (he ▸ hid)
  · rw [hu.freeList, hfree, List.flatMap_append, List.append_assoc]
    simp
  · rw [hu.tapUse, htap, Nat.sub_sub, List.filter_append, List.map_append, List.sum_append]
    congr 2
    cases hk : b.kind <;> simp [hk]
  · rw [hu.portUse, huse, Nat.sub_sub, List.filter_append, List.map_append, List.sum_append]
    congr 2
    by_cases hk : b.kind = .output ∧ b.port = q
    · simp [hk]
    · rw [if_neg hk]
      simp [hk]

theorem block_lowered (s : Part) (id k : Nat) : (s.modBlock id fun b => { b with refCount := b.refCount - 1 }).block k =
    if k = id then (s.block k).map fun b => { b with refCount := b.refCount - 1 } else s.block k :=
  Part.block_modBlock s id (f := fun b => { b with refCount := b.refCount - 1 }) (fun _ => rfl) k

/-- A hold of a block goes that has more. -/
theorem holdsGone_lowers {count : Nat → Nat} {s t : Part} (h : HoldsGone count s t) {id : Nat} {b c : Block}
    (hb : s.block id = some b) (hc : t.block id = some c) (hr : ¬c.refCount ≤ 1) :
    HoldsGone (countMore count id) s (t.modBlock id fun b => { b with refCount := b.refCount - 1 }) := by
  obtain ⟨rfl, hcount⟩ := holdsGone_survivor h hb hc
  have hr' : count id + 1 < b.refCount := by dsimp only at hr; omega
  obtain ⟨freed, hnodup, hmem, haccounts⟩ := h.freed
  refine ⟨fun k d hd => ?_, freed, hnodup, fun d => ?_, haccounts⟩
  · rw [block_lowered]
    by_cases hk : k = id
    · subst hk
      obtain rfl := Option.some.inj (hb.symm.trans hd)
      rw [countMore_self, if_pos rfl, hc]
      refine ⟨fun h0 => by omega, fun _ _ => ?_, fun _ hle => by omega⟩
      rw [Option.map_some, Nat.sub_sub]
    · rw [countMore_ne _ hk, if_neg hk]
      exact h.released k d hd
  · rw [hmem]
    refine and_congr_right fun hd => ?_
    by_cases he : d.id = id
    · rw [he, hb] at hd
      obtain rfl := Option.some.inj hd
      rw [he, countMore_self]
      omega
    · rw [countMore_ne _ he]

/-- One more hold goes, the block there or not. -/
theorem holdsGone_drop {count : Nat → Nat} {s t : Part} (h : HoldsGone count s t)
    (gone : ∀ k, s.block k = none → t.block k = none) (id : Nat) : HoldsGone (countMore count id) s (dropHold id t) := by
  cases hc : t.block id with
  | none =>
    rw [dropHold_gone hc]
    refine holdsGone_congr h fun k b hb => ?_
    by_cases hk : k = id
    · subst hk
      obtain ⟨h1, h2, -⟩ := h.released k b hb
      rw [hc] at h1 h2
      have hpos : 0 < count k := Nat.pos_of_ne_zero fun h0 => by cases h1 h0
      have hle : b.refCount ≤ count k := Nat.not_lt.1 fun hlt => by cases h2 hpos hlt
      rw [countMore_self]
      exact .inr ⟨hpos, hle, by omega, by omega⟩
    · exact .inl (countMore_ne _ hk).symm
  | some c =>
    cases hb : s.block id with
    | none => rw [gone id hb] at hc; cases hc
    | some b =>
      by_cases hr : c.refCount ≤ 1
      · rw [dropHold_last hc hr]
        exact holdsGone_frees h hb hc hr (freeBlock_freed c t)
      · rw [dropHold_held hc hr]
        exact holdsGone_lowers h hb hc hr

theorem dropHold_block_none {id k : Nat} {s : Part} (h : s.block k = none) : (dropHold id s).block k = none := by
  cases hb : s.block id with
  | none => rwa [dropHold_gone hb]
  | some b =>
    by_cases hr : b.refCount ≤ 1
    · rw [dropHold_last hb hr, (freeBlock_freed b s).block, h, ite_self]
    · rw [dropHold_held hb hr]
      rw [block_lowered, h]
      exact ite_self _

/-- The holds of a list are gone once they are dropped one after another. -/
theorem dropping_gone (l : List Nat) (s : Part) : HoldsGone (fun id => l.count id) s (s.dropping l) := by
  have gone (l : List Nat) (k : Nat) (h : s.block k = none) : (s.dropping l).block k = none := by
    induction l using List.reverseRecOn with
    | nil => exact h
    | append_singleton l id ih =>
      rw [Part.dropping, List.foldl_append]
      exact dropHold_block_none ih
  induction l using List.reverseRecOn with
  | nil =>
    refine ⟨fun k b hb => ⟨fun _ => hb, fun h => absurd h (Nat.lt_irrefl 0), fun h => absurd h (Nat.lt_irrefl 0)⟩, [],
      List.nodup_nil, fun b => ?_, (List.append_nil _).symm, rfl, fun q => rfl⟩
    simp
  | append_singleton l id ih =>
    have e : (fun k => (l ++ [id]).count k) = countMore (fun k => l.count k) id := by
      funext k
      rw [List.count_append, List.count_singleton]
      by_cases h : k = id
      · simp [countMore, h]
      · simp [countMore, h, Ne.symm h]
    rw [e, Part.dropping, List.foldl_append]
    exact holdsGone_drop ih (gone l) id

theorem Drops.holdsGone {l : List Nat} {s t : Part} (h : Drops l s t) : HoldsGone (fun id => l.count id) s t :=
  holdsGone_store (dropping_gone l s) h.store

end Sys2Proof.Machine
end

section
namespace Sys2Proof.Machine
open Sys2Proof.Claims

/-! ### A stopped port stands aside in every cascade (R35, R71, R72) -/

/-- Port p is DISABLED and does not wait for a cell. -/
def Off (p : PortNo) (s : Part) : Prop := (s.port p).portState = .disabled ∧ p ∉ s.waitList

/-- From part `s` to part `t` notices have joined the queue at its tail, a loss that shows still shows, and without a supervisor
nothing was offered. -/
structure Adds (s t : Part) : Prop where
  more : ∃ more, t.notices = s.notices ++ more ∧ (s.noticesLost = true → t.noticesLost = true ∨ ∃ m ∈ more, m.lost = true)
  supervisor : t.supervisor = s.supervisor
  silent : s.supervisor = none → t.notices = s.notices ∧ t.noticesLost = s.noticesLost

/-- Port p has kept all but its account and what an owner change does to its head, and is still off. -/
structure Spared (p : PortNo) (s t : Part) : Prop extends Adds s t where
  port : t.port p = { s.port p with portUse := (t.port p).portUse, headHold := (t.port p).headHold }
  off : Off p t

/-- What begins with port p off spares it. -/
def Spares (p : PortNo) (s t : Part) : Prop := Off p s → Spared p s t

theorem Adds.refl (s : Part) : Adds s s := ⟨⟨[], (List.append_nil _).symm, .inl⟩, rfl, fun _ => ⟨rfl, rfl⟩⟩

theorem Adds.trans {s t u : Part} (a : Adds s t) (b : Adds t u) : Adds s u := by
  obtain ⟨l, hl, hls⟩ := a.more
  obtain ⟨m, hm, hms⟩ := b.more
  refine ⟨⟨l ++ m, by rw [hm, hl, List.append_assoc], fun h => ?_⟩, b.supervisor.trans a.supervisor, fun h => ?_⟩
  · rcases hls h with h' | ⟨n, hn, hlost⟩
    · exact (hms h').imp_right fun ⟨n, hn, hlost⟩ => ⟨n, List.mem_append_right _ hn, hlost⟩
    · exact .inr ⟨n, List.mem_append_left _ hn, hlost⟩
  · obtain ⟨h1, h2⟩ := a.silent h
    obtain ⟨h3, h4⟩ := b.silent (a.supervisor.trans h)
    exact ⟨h3.trans h1, h4.trans h2⟩

/-- What leaves the Notice Queue alone adds nothing. -/
theorem Adds.unheard {s t : Part} (hn : t.notices = s.notices) (hl : t.noticesLost = s.noticesLost)
    (hs : t.supervisor = s.supervisor) : Adds s t :=
  ⟨⟨[], by rw [hn, List.append_nil], fun h => .inl (hl.trans h)⟩, hs, fun _ => ⟨hn, hl⟩⟩

theorem offering_adds (l : List Notice) (s : Part) : ∃ more, (s.offering l).notices = s.notices ++ more ∧
    (s.noticesLost = true → (s.offering l).noticesLost = true ∨ ∃ m ∈ more, m.lost = true) := by
  induction l generalizing s with
  | nil => exact ⟨[], (List.append_nil _).symm, .inl⟩
  | cons n rest ih =>
    obtain ⟨more, hmore, hlost⟩ := ih (offerNotice n s)
    have e : s.offering (n :: rest) = (offerNotice n s).offering rest := rfl
    rw [e, hmore]
    rcases offerNotice_cases n s with ⟨-, h⟩ | ⟨-, h⟩
    · refine ⟨{ n with lost := s.noticesLost } :: more, by rw [h, List.append_assoc]; rfl, fun hs => .inr ?_⟩
      exact ⟨_, List.mem_cons_self, hs⟩
    · refine ⟨more, by rw [h], fun _ => hlost (by rw [h])⟩

theorem setCondition_silent {q : PortNo} {c : Condition} {s : Part} (h : s.supervisor = none) :
    (setCondition q c s).notices = s.notices ∧ (setCondition q c s).noticesLost = s.noticesLost := by
  unfold setCondition
  dsimp only
  split
  · exact ⟨rfl, rfl⟩
  · split
    · split
      · next hs => exact absurd (hs.symm.trans h) (by simp)
      · exact ⟨rfl, rfl⟩
    · exact ⟨rfl, rfl⟩

theorem setCondition_adds (q : PortNo) (c : Condition) (s : Part) : Adds s (setCondition q c s) where
  more := by
    rcases setCondition_cases q c s with ⟨-, e⟩ | ⟨-, -, e⟩ | ⟨-, -, dst, e⟩ <;> rw [e]
    · exact (Adds.refl s).more
    · exact (Adds.refl s).more
    · exact offering_adds [_] (s.modPort q (·.withCondition c))
  supervisor := (setCondition_quiet q c s).supervisor
  silent := setCondition_silent

namespace Spares
variable {p : PortNo} {s t u : Part}

theorem of_fields (hports : t.port p = { s.port p with portUse := (t.port p).portUse, headHold := (t.port p).headHold })
    (hw : ∀ q ∈ t.waitList, q ∈ s.waitList) (hn : t.notices = s.notices) (hl : t.noticesLost = s.noticesLost)
    (hs : t.supervisor = s.supervisor) : Spares p s t := fun h =>
  ⟨.unheard hn hl hs, hports, by rw [hports]; exact h.1, fun hp => h.2 (hw p hp)⟩

theorem refl (p : PortNo) (s : Part) : Spares p s s := of_fields rfl (fun _ h => h) rfl rfl rfl

theorem trans (a : Spares p s t) (b : Spares p t u) : Spares p s u := fun h => by
  have ha := a h
  have hb := b ha.off
  refine ⟨ha.toAdds.trans hb.toAdds, ?_, hb.off⟩
  have := hb.port
  rw [ha.port] at this
  exact this

theorem foldl {α : Type} {f : Part → α → Part} (h : ∀ s a, Spares p s (f s a)) (l : List α) (s : Part) :
    Spares p s (l.foldl f s) := by
  induction l generalizing s with
  | nil => exact refl p s
  | cons a rest ih => exact (h s a).trans (ih (f s a))

/-- An update of another port. -/
theorem modPort {q : PortNo} (h : q ≠ p) (s : Part) (f : Port → Port) : Spares p s (s.modPort q f) :=
  of_fields (by rw [Part.port_modPort_ne s q p f h]) (fun _ h => h) rfl rfl rfl

theorem thenModPort (a : Spares p s t) {q : PortNo} (h : q ≠ p) (f : Port → Port) : Spares p s (t.modPort q f) :=
  a.trans (modPort h t f)

/-- An update of the account of any port. -/
theorem modUse (q : PortNo) (s : Part) (f : Port → Nat) : Spares p s (s.modPort q fun x => { x with portUse := f x }) := by
  by_cases h : q = p
  · subst h
    exact of_fields (by rw [Part.port_modPort_self]) (fun _ h => h) rfl rfl rfl
  · exact modPort h s _

theorem setCondition {q : PortNo} (h : q ≠ p) (c : Condition) (s : Part) : Spares p s (setCondition q c s) := fun ho => by
  have same := setCondition_same q c s
  have hport : (Machine.setCondition q c s).port p = s.port p := (same.port p).trans (Part.port_modPort_ne s q p _ h)
  exact ⟨setCondition_adds q c s, by rw [hport], by rw [Off, hport, same.waitList]; exact ho⟩

/-- A stopped port does not evaluate its pause (R35). -/
theorem evalPause (q : PortNo) (s : Part) : Spares p s (evalPause q s) := by
  by_cases h : q = p
  · subst h
    intro ho
    have hstop : ¬(s.port q).running = true := fun hr => (Port.running_iff _).1 hr ho.1
    have e : Machine.evalPause q s = s := if_neg hstop
    rw [e]
    exact refl q s ho
  · have changes (v : Pause) : Spares p s (changePause q v s) := by
      unfold changePause
      cases v with
      | released => exact (modPort h s (·.withPause .released)).thenModPort h _
      | asserted => exact ((modPort h s (·.withPause .asserted)).trans (setCondition h .pause _)).thenModPort h _
    unfold Machine.evalPause
    dsimp only
    split
    · split <;> split
      · exact changes .asserted
      · exact refl p s
      · exact changes .released
      · exact refl p s
    · exact refl p s

theorem freeBlock (b : Block) (s : Part) : Spares p s (freeBlock b s) := by
  cases h : b.kind with
  | keys =>
    rw [freeBlock_keys h]
    exact of_fields rfl (fun _ h => h) rfl rfl rfl
  | output =>
    rw [freeBlock_output h]
    refine trans ?_ (evalPause b.port _)
    refine (modUse b.port s fun x => x.portUse - b.cells.length).trans ?_
    exact of_fields rfl (fun _ h => h) rfl rfl rfl

theorem dropHold (id : Nat) (s : Part) : Spares p s (dropHold id s) := by
  unfold Machine.dropHold
  split
  · exact refl p s
  · split
    · exact freeBlock _ s
    · exact of_fields rfl (fun _ h => h) rfl rfl rfl

theorem modBlock (id : Nat) (f : Block → Block) (s : Part) : Spares p s (s.modBlock id f) :=
  of_fields rfl (fun _ h => h) rfl rfl rfl

theorem closeBlock {q : PortNo} (h : q ≠ p) (r : CloseReason) (s : Part) : Spares p s (closeBlock q r s) := by
  unfold Machine.closeBlock
  split
  · exact refl p s
  · exact (modBlock _ _ s).trans (modPort h _ _)

theorem fireTrigger {q : PortNo} (h : q ≠ p) (t : TriggerNo) (o : Word32) (s : Part) : Spares p s (fireTrigger q t o s).1 := by
  have mark (g : Nat) : Spares p s (markOpenBlock q g s) := by
    unfold markOpenBlock
    split
    · exact refl p s
    · exact modBlock _ _ s
  have notice (s : Part) : Spares p s (noticeMatch q t o s) := (modPort h s _).trans (setCondition h .pattern _)
  unfold Machine.fireTrigger
  dsimp only
  split_ifs
  · exact (mark _).trans (notice _)
  · exact notice s
  · exact mark _
  · exact refl p s

theorem advanceTriggers {q : PortNo} (h : q ≠ p) (b : Byte) (o : Word32) (s : Part) :
    Spares p s (advanceTriggers q b o s).1 := by
  have one (acc : Part × Bool) (t : TriggerNo) : Spares p acc.1 (advanceTrigger q b o acc t).1 := by
    unfold advanceTrigger
    dsimp only
    split_ifs
    · exact (modPort h acc.1 _).trans (fireTrigger h t o _)
    · exact modPort h acc.1 fun _ => _
    · exact refl p acc.1
  have steps (l : List TriggerNo) (acc : Part × Bool) : Spares p acc.1 (l.foldl (advanceTrigger q b o) acc).1 := by
    induction l generalizing acc with
    | nil => exact refl p acc.1
    | cons t rest ih => exact (one acc t).trans (ih _)
  exact steps allTriggers (s, false)

theorem placeByte {q : PortNo} (h : q ≠ p) (s : Part) : Spares p s (placeByte q s) := by
  unfold Machine.placeByte
  split
  · next b v _ _ =>
    have store : Spares p s (storeByte q b v s) := by
      unfold storeByte
      refine thenModPort ?_ h _
      exact of_fields rfl (fun _ h => h) rfl rfl rfl
    refine (store.trans (advanceTriggers h v (s.port q).streamOffset _)).trans ?_
    dsimp only
    split
    · exact closeBlock h _ _
    · exact modPort h _ _
  · exact refl p s

theorem decideCell {q : PortNo} (h : q ≠ p) (s : Part) : Spares p s (decideCell q s).1 := by
  have one (id : Nat) (s : Part) : Spares p s (yieldOldest q id s) :=
    ((modPort h s _).trans (setCondition h .historyYield _)).trans (dropHold id _)
  have yields (chain : List Nat) (s : Part) : Spares p s (yieldHistory q chain s).1 := by
    induction chain generalizing s with
    | nil => exact refl p s
    | cons id rest ih =>
      unfold yieldHistory
      dsimp only
      split_ifs
      · exact one id s
      · exact (one id s).trans (ih _)
  unfold Machine.decideCell
  split_ifs
  · exact refl p s
  · exact yields _ s

theorem admitCell {q : PortNo} (h : q ≠ p) (s : Part) : Spares p s (admitCell q s) := by
  have take : Spares p s (takeCell q s) := by
    unfold takeCell
    split
    · exact refl p s
    · next c rest _ =>
      have freed : Spares p s { s with freeList := rest } := of_fields rfl (fun _ h => h) rfl rfl rfl
      dsimp only
      split
      · refine thenModPort ?_ h _
        exact of_fields rfl (fun _ h => h) rfl rfl rfl
      · exact freed.trans (modBlock _ _ _)
  exact ((take.trans (modUse q _ fun x => x.portUse + 1)).trans (evalPause q _)).trans (placeByte h _)

/-- As one event an operation spares what it spares step by step (R179). -/
theorem inTableOrder (q : PortNo) {f : Part → Part} (h : ∀ s, Spares p s (f s)) (s : Part) : Spares p s (inTableOrder q f s) := by
  intro ho
  have hf := h s.emptied ho
  have same : SameButNotices (f s.emptied) (Machine.inTableOrder q f s) := inTableOrder_same q f s
  obtain ⟨hqueue, hlost⟩ := inTableOrder_queue q f s
  have hsup : (Machine.inTableOrder q f s).supervisor = s.supervisor := by
    obtain ⟨m, b, e⟩ := same
    rw [e]
    exact hf.supervisor
  refine ⟨⟨?_, hsup, fun hno => ?_⟩, ?_, ?_⟩
  · obtain ⟨more, hmore, hshows⟩ := offering_adds (eventNotices q f s) s
    refine ⟨more, hqueue.trans hmore, fun hl => (hshows hl).imp_left fun h' => ?_⟩
    rw [hlost, h', Bool.or_true]
  · obtain ⟨hn, hl⟩ := hf.silent hno
    have hnone : eventNotices q f s = [] := by
      rw [eventNotices, hn]
      rfl
    rw [hqueue, hlost, hnone, hl]
    exact ⟨rfl, rfl⟩
  · rw [same.port]
    exact hf.port
  · rw [Off, same.port, same.waitList]
    exact hf.off

/-- The retry of a waiting port is never port p's (R71, R72). -/
theorem retryPort (q : PortNo) (s : Part) : Spares p s (retryPort q s) := by
  intro ho
  by_cases hq : q = p
  · subst hq
    have e : Machine.retryPort q s = s := if_neg (by simpa using ho.2)
    rw [e]
    exact refl q s ho
  · refine (show Spares p s (Machine.retryPort q s) from ?_) ho
    unfold Machine.retryPort
    split_ifs
    · refine inTableOrder q (fun s => ?_) s
      dsimp only
      split_ifs
      · refine trans (decideCell hq s) (trans ?_ (admitCell hq _))
        exact of_fields rfl (fun _ h => List.mem_of_mem_filter h) rfl rfl rfl
      · exact decideCell hq s
    · exact refl p s

theorem settleWalks (s : Part) : Spares p s (settleWalks s) := by
  have walked (s : Part) : Spares p s { s with walkDue := false } := of_fields rfl (fun _ h => h) rfl rfl rfl
  have walk (n : Nat) (s : Part) : Spares p s (walks n s) := by
    induction n generalizing s with
    | zero => exact refl p s
    | succ n ih =>
      unfold walks
      split_ifs
      · exact ((walked s).trans (foldl (fun s q => retryPort q s) s.waitList _)).trans (ih _)
      · exact refl p s
  exact walk _ s

theorem releaseHold (id : Nat) (s : Part) : Spares p s (releaseHold id s) := by
  unfold Machine.releaseHold
  split
  · exact refl p s
  · next b _ =>
    dsimp only
    split_ifs
    · exact ((dropHold id s).trans (retryPort b.port _)).trans (settleWalks _)
    · exact dropHold id s

/-- An owner change touches the head of a port and nothing else of it (R104). -/
theorem retryHead (q : PortNo) (s : Part) : Spares p s (retryHead q s) := by
  by_cases h : q = p
  · subst h
    refine of_fields ?_ (fun _ h => h) rfl rfl rfl
    rw [Machine.retryHead, Part.port_modPort_self]
    split <;> rfl
  · exact modPort h s _

theorem clearQueue (q : QueueNo) (s : Part) : Spares p s (clearQueue q s) := by
  have reports (s : Part) : Spares p s (reportRelease q s) := by
    unfold reportRelease
    split
    · exact refl p s
    · split
      · exact retryHead _ s
      · exact refl p s
  refine foldl (fun s r => ?_) _ s
  unfold releaseOldest
  refine trans (trans ?_ (releaseHold r.block _)) (reports _)
  exact of_fields rfl (fun _ h => h) rfl rfl rfl

end Spares

end Sys2Proof.Machine
end

section
namespace Sys2Proof.Machine
open Sys2Proof.Claims

/-! ### What passes through the Notice Queue (R136, R181) -/

/-- A loss shows: the lost flag is set, or a queued notice carries the indication (R181). -/
def Part.lossShows (s : Part) : Prop := s.noticesLost = true ∨ ∃ m ∈ s.notices, m.lost = true

/-- The notices stand for no pending flag. -/
def Unmarked (l : List Notice) : Prop := ∀ m ∈ l, m.marks = none

/-- From part `s` to part `t` the notices that stand for no pending flag are still queued, and a loss that shows still shows. -/
structure NoticesPass (s t : Part) : Prop where
  stays : ∀ m ∈ s.notices, m.marks = none → m ∈ t.notices
  shows : s.lossShows → t.lossShows

theorem NoticesPass.trans {s t u : Part} (a : NoticesPass s t) (b : NoticesPass t u) : NoticesPass s u :=
  ⟨fun m hm h => b.stays m (a.stays m hm h) h, fun h => b.shows (a.shows h)⟩

theorem Adds.passes {s t : Part} (h : Adds s t) : NoticesPass s t := by
  obtain ⟨more, hmore, hlost⟩ := h.more
  refine ⟨fun m hm _ => by rw [hmore]; exact List.mem_append_left _ hm, ?_⟩
  rintro (hs | ⟨m, hm, hml⟩)
  · exact (hlost hs).imp_right fun ⟨m, hm, hml⟩ => ⟨m, by rw [hmore]; exact List.mem_append_right _ hm, hml⟩
  · exact .inr ⟨m, by rw [hmore]; exact List.mem_append_left _ hm, hml⟩

theorem Notice.unmark_of_none {m : Notice} (n : SessionNo) (h : m.marks = none) : m.unmark n = m := if_neg (by simp [h])

theorem Notice.unmark_lost (m : Notice) (n : SessionNo) : (m.unmark n).lost = m.lost := by
  unfold Notice.unmark
  split <;> rfl

/-- The withdrawal of an ATTENTION notice takes that notice alone, and a lost indication that it carried returns to the flag. -/
theorem withdrawAttention_passes (n : SessionNo) (s : Part) : NoticesPass s (withdrawAttention n s) := by
  unfold withdrawAttention
  split
  · refine ⟨fun m hm h => List.mem_map.2 ⟨m, hm, Notice.unmark_of_none n h⟩, Or.imp_right ?_⟩
    rintro ⟨m, hm, hl⟩
    exact ⟨m.unmark n, List.mem_map_of_mem hm, (m.unmark_lost n).trans hl⟩
  · refine ⟨fun m hm h => List.mem_filter.2 ⟨hm, by simp [h]⟩, ?_⟩
    rintro (hs | ⟨m, hm, hl⟩)
    · exact .inl (by simp [hs])
    · by_cases hmark : m.marks = some n
      · refine .inl (Bool.or_eq_true_iff.2 (.inr (List.any_eq_true.2 ⟨m, hm, ?_⟩)))
        simp [hmark, hl]
      · exact .inr ⟨m, List.mem_filter.2 ⟨hm, by simp [hmark]⟩, hl⟩

/-- The withdrawal leaves the newest notices where they stand, if they stand for no pending flag. -/
theorem withdrawAttention_tail {n : SessionNo} {s : Part} {A B : List Notice} (h : s.notices = A ++ B) (hB : Unmarked B) :
    ∃ A', (withdrawAttention n s).notices = A' ++ B ∧ A'.length ≤ A.length := by
  unfold withdrawAttention
  split
  · refine ⟨A.map (·.unmark n), ?_, (List.length_map _).le⟩
    dsimp only
    rw [h, List.map_append]
    congr 1
    exact (List.map_congr_left fun m hm => Notice.unmark_of_none n (hB m hm)).trans (List.map_id' B)
  · refine ⟨A.filter fun m => m.marks != some n, ?_, List.length_filter_le _ _⟩
    dsimp only
    rw [h, List.filter_append]
    congr 1
    exact List.filter_eq_self.2 fun m hm => by simp [hB m hm]

end Sys2Proof.Machine
end

section
namespace Sys2Proof.Machine
open Sys2Proof.Claims

/-! ### Sessions of a stopped port end (R28, R77, R140 to R142, R161) -/

/-- The delayed DETACH replies of the sessions, ABORTED (R141). -/
def Part.drains (s : Part) (reason : EndReason) (l : List SessionNo) : List DelayedReply :=
  l.filterMap fun n => (s.session n).drainSlot.map fun k => (k, .aborted, detachReply reason 0 (s.session n))

/-- The blocks that the queues of the sessions hold, in their order. -/
def Part.queued (s : Part) (l : List SessionNo) : List Nat := l.flatMap fun n => (s.queue (sessionQueue n)).map Ref.block

/-- What the SESSION_EVENT notice of a session of port p says, and to whom. -/
def Part.told (s : Part) (p : PortNo) (e : EventReason) (n : SessionNo) : Address × NoticeBody :=
  (s.addressOf n, .sessionEvent n (s.session n).tag p e none)

/-- From part `s` to part `t` the sessions of `l` have been aborted, all on port p, which is off. -/
structure SessionsAborted (p : PortNo) (reason : EndReason) (l : List SessionNo) (s t : Part) : Prop where
  session : ∀ k, t.session k = if k ∈ l then .free else s.session k
  queue : ∀ q, t.queue q = if q ∈ l.map sessionQueue then [] else s.queue q
  replies : Forms (s.drains reason l) s t
  drops : s.waitList = [] → Drops (s.queued l) s t
  kept : ∀ q, q ≠ p → PortKept (s.port q) (t.port q)
  port : t.port p = { s.port p with portUse := (t.port p).portUse, headHold := (t.port p).headHold }
  off : Off p t
  supervisor : t.supervisor = s.supervisor
  passes : NoticesPass s t
  told : ∀ e, reason.event = some e → ∀ n ∈ l, (∃ m ∈ t.notices, m.marks = none ∧ m.content = s.told p e n) ∨ t.lossShows
  last : ∀ e, reason.event = some e → s.supervisor = none → ∀ A B, s.notices = A ++ B → Unmarked B →
    A.length + B.length + l.length ≤ 32 → ∃ A' B', t.notices = A' ++ B' ∧ A'.length ≤ A.length ∧ Unmarked B' ∧
      B'.map Notice.content = B.map Notice.content ++ l.map (s.told p e)

/-- The port that session n owned has lost its owner (R120, R140). -/
def ownerLeft (n : SessionNo) (s : Part) : Part := if s.owns n (s.session n).port then ownerChanged (s.session n).port s else s

/-- The part whose session n has lost its queue, its port and its key bytes (R28, R77, R140, R161). -/
def sessionStripped (n : SessionNo) (s : Part) : Part :=
  let s := ownerLeft n (clearQueue (sessionQueue n) s)
  let s := s.modPort (s.session n).port (·.untag n)
  { s with transmission := s.transmission.map fun t => { t with what := t.what.unname n } }

/-- The ATTENTION notice of a session that ends is withdrawn (R136, R140). -/
def attentionEnded (n : SessionNo) (s : Part) : Part := if (s.session n).attention then withdrawAttention n s else s

theorem ownerLeft_quiet (n : SessionNo) (s : Part) : Quiet s (ownerLeft n s) := by
  unfold ownerLeft
  split
  · exact ownerChanged_quiet _ s
  · exact Quiet.refl s

/-- What clears the queue and the ownership of a session goes no further than a cascade. -/
theorem ownerLeft_queue (n : SessionNo) (s : Part) : QueueFrame s (ownerLeft n (clearQueue (sessionQueue n) s)) :=
  (clearQueue_queue _ s).trans (ownerLeft_quiet n _).toQueueFrame

/-- The stages of a session end (R140). -/
theorem endSession_eq (n : SessionNo) (reason : EndReason) (code : ResultCode) (d : Nat) (dst : Address) (s : Part) :
    endSession n reason code d dst s = offerEndNotice n (s.session n) reason dst
      ((formDetachReply (s.session n) reason code d (attentionEnded n (sessionStripped n s))).setSession n .free) := by
  have hq : (clearQueue (sessionQueue n) s).session n = s.session n := (clearQueue_queue _ s).session n
  have hx : (ownerLeft n (clearQueue (sessionQueue n) s)).session n = s.session n := (ownerLeft_queue n s).session n
  have ha : (sessionStripped n s).session n = s.session n := hx
  unfold attentionEnded
  rw [ha]
  unfold sessionStripped
  dsimp only
  rw [hx]
  unfold ownerLeft endSession
  dsimp only
  rw [hq]

theorem Port.untag_initial {x : Port} (n : SessionNo) (h : x.engine = .initial) : x.untag n = x := by
  unfold Port.untag
  rw [h]
  show { x with engine := Engine.initial } = x
  rw [← h]

theorem ownerLeft_spares (p : PortNo) (n : SessionNo) (s : Part) : Spares p s (ownerLeft n (clearQueue (sessionQueue n) s)) := by
  refine (Spares.clearQueue (sessionQueue n) s).trans ?_
  unfold ownerLeft
  split
  · exact Spares.retryHead _ _
  · exact .refl p _

/-- A stopped port has no key byte that names a session. -/
theorem sessionStripped_eq {p : PortNo} {n : SessionNo} {s : Part} (ho : Off p s) (he : (s.port p).engine = .initial)
    (hp : (s.session n).port = p) : ∃ tx, sessionStripped n s =
      { ownerLeft n (clearQueue (sessionQueue n) s) with transmission := tx } := by
  have hx : (ownerLeft n (clearQueue (sessionQueue n) s)).session n = s.session n := (ownerLeft_queue n s).session n
  have hengine : ((ownerLeft n (clearQueue (sessionQueue n) s)).port p).engine = .initial := by
    rw [(ownerLeft_spares p n s ho).port]
    exact he
  have hmod : (ownerLeft n (clearQueue (sessionQueue n) s)).modPort
      ((ownerLeft n (clearQueue (sessionQueue n) s)).session n).port (·.untag n) = ownerLeft n (clearQueue (sessionQueue n) s) := by
    rw [hx, hp, Part.modPort_eq, Port.untag_initial n hengine, Part.setPort_port_self]
  exact ⟨(ownerLeft n (clearQueue (sessionQueue n) s)).transmission.map fun t => { t with what := t.what.unname n }, by
    unfold sessionStripped
    dsimp only
    rw [hmod]⟩

theorem ownerLeft_drops (n : SessionNo) {s : Part} (hw : s.waitList = []) :
    Drops ((s.queue (sessionQueue n)).map Ref.block) s (ownerLeft n (clearQueue (sessionQueue n) s)) := by
  have cleared := clearQueue_drops (sessionQueue n) hw
  refine cleared.then ?_
  unfold ownerLeft
  split
  · exact (SameStore.modPort _ _ (by split <;> rfl)).drops rfl cleared.waitList
  · exact (SameStore.refl _).drops rfl cleared.waitList

theorem ownerLeft_get (n : SessionNo) (s : Part) (q : QueueNo) :
    (ownerLeft n (clearQueue (sessionQueue n) s)).queue q = if sessionQueue n = q then [] else s.queue q :=
  ((ownerLeft_quiet n _).queue q).trans (clearQueue_get (sessionQueue n) q s)

/-- A change of the Notice Queue, the arbiter's choice and the transmit record alone. -/
def NoticesAlone (s t : Part) : Prop := ∃ m b tx ch, t = { s with notices := m, noticesLost := b, transmission := tx, chosen := ch }

theorem withdrawAttention_alone (n : SessionNo) (s : Part) : NoticesAlone s (withdrawAttention n s) := by
  unfold withdrawAttention
  split
  · exact ⟨_, _, _, _, rfl⟩
  · exact ⟨_, _, _, _, rfl⟩

theorem attentionEnded_alone (n : SessionNo) (s : Part) : NoticesAlone s (attentionEnded n s) := by
  unfold attentionEnded
  split
  · exact withdrawAttention_alone n s
  · exact ⟨_, _, _, _, rfl⟩

theorem attentionEnded_passes (n : SessionNo) (s : Part) : NoticesPass s (attentionEnded n s) := by
  unfold attentionEnded
  split
  · exact withdrawAttention_passes n s
  · exact (Adds.refl s).passes

theorem attentionEnded_tail {n : SessionNo} {s : Part} {A B : List Notice} (h : s.notices = A ++ B) (hB : Unmarked B) :
    ∃ A', (attentionEnded n s).notices = A' ++ B ∧ A'.length ≤ A.length := by
  unfold attentionEnded
  split
  · exact withdrawAttention_tail h hB
  · exact ⟨A, h, le_refl _⟩

/-- Forming a DETACH reply touches the Reply Queue alone. -/
theorem formDetachReply_eq (x : Session) (reason : EndReason) (code : ResultCode) (d : Nat) (s : Part) :
    formDetachReply x reason code d s = { s with
      slots := (formDetachReply x reason code d s).slots, formed := (formDetachReply x reason code d s).formed } := by
  unfold formDetachReply
  split
  · exact formReply_eq _ _ _ s
  · rfl

theorem formDetachReply_forms (n : SessionNo) (reason : EndReason) (s : Part) {t : Part} :
    Forms (s.drains reason [n]) t (formDetachReply (s.session n) reason .aborted 0 t) := by
  unfold formDetachReply Part.drains
  cases h : (s.session n).drainSlot with
  | none =>
    rw [List.filterMap_cons_none (by rw [h]; rfl)]
    exact .nothing rfl rfl
  | some k =>
    rw [List.filterMap_cons_some (by rw [h]; rfl)]
    exact formReply_forms k .aborted _ t

/-- The notice of a session's end is queued last, or the loss shows (R141, R181). -/
theorem offerEndNotice_cases {reason : EndReason} {e : EventReason} (he : reason.event = some e) (n : SessionNo) (x : Session)
    (dst : Address) (s : Part) : ∃ m : Notice, m.marks = none ∧ m.content = (dst, .sessionEvent n x.tag x.port e none) ∧
      ((s.notices.length < 32 ∧ (offerEndNotice n x reason dst s).notices = s.notices ++ [m]) ∨
        (32 ≤ s.notices.length ∧ (offerEndNotice n x reason dst s).noticesLost = true)) := by
  have h : offerEndNotice n x reason dst s = offerNotice (sessionEvent n x e none dst) s := by
    unfold offerEndNotice
    rw [he]
  refine ⟨{ sessionEvent n x e none dst with lost := s.noticesLost }, rfl, rfl, ?_⟩
  rw [h]
  rcases offerNotice_cases (sessionEvent n x e none dst) s with ⟨hroom, e⟩ | ⟨hfull, e⟩ <;> rw [e]
  · exact .inl ⟨hroom, rfl⟩
  · exact .inr ⟨hfull, rfl⟩

theorem offerEndNotice_same (n : SessionNo) (x : Session) (reason : EndReason) (dst : Address) (s : Part) :
    SameButNotices s (offerEndNotice n x reason dst s) := by
  unfold offerEndNotice
  split
  · exact offerNotice_same _ s
  · exact .refl s

theorem offerEndNotice_passes (n : SessionNo) (x : Session) (reason : EndReason) (dst : Address) (s : Part) :
    NoticesPass s (offerEndNotice n x reason dst s) := by
  have offered (m : Notice) : NoticesPass s (offerNotice m s) := by
    obtain ⟨more, hmore, hlost⟩ := offering_adds [m] s
    have hmore : (offerNotice m s).notices = s.notices ++ more := hmore
    refine ⟨fun k hk _ => by rw [hmore]; exact List.mem_append_left _ hk, ?_⟩
    rintro (hs | ⟨k, hk, hl⟩)
    · exact (hlost hs).imp_right fun ⟨k, hk, hl⟩ => ⟨k, by rw [hmore]; exact List.mem_append_right _ hk, hl⟩
    · exact .inr ⟨k, by rw [hmore]; exact List.mem_append_left _ hk, hl⟩
  unfold offerEndNotice
  split
  · exact offered _
  · exact (Adds.refl s).passes

/-- The part whose session n has ended, its notice still to be offered (R140, R141). -/
def sessionFreed (n : SessionNo) (reason : EndReason) (s : Part) : Part :=
  (formDetachReply (s.session n) reason .aborted 0 (attentionEnded n (sessionStripped n s))).setSession n .free

theorem abortSession_eq (reason : EndReason) (n : SessionNo) (s : Part) :
    abortSession reason s n = offerEndNotice n (s.session n) reason (s.addressOf n) (sessionFreed n reason s) :=
  endSession_eq n reason .aborted 0 (s.addressOf n) s

/-- Only the withdrawal of its ATTENTION notice touches the Notice Queue. -/
theorem sessionFreed_notices (n : SessionNo) (reason : EndReason) (s : Part) :
    (sessionFreed n reason s).notices = (attentionEnded n (sessionStripped n s)).notices ∧
      (sessionFreed n reason s).noticesLost = (attentionEnded n (sessionStripped n s)).noticesLost := by
  unfold sessionFreed
  rw [formDetachReply_eq]
  exact ⟨rfl, rfl⟩

/-- What a session's end on a stopped port leaves beyond the Reply Queue, the Notice Queue and the transmit record. -/
theorem abortSession_rest {p : PortNo} (reason : EndReason) {n : SessionNo} {s : Part} (ho : Off p s)
    (he : (s.port p).engine = .initial) (hp : (s.session n).port = p) : ∃ slots formed m b tx ch,
      abortSession reason s n = { (ownerLeft n (clearQueue (sessionQueue n) s)).setSession n .free with
        slots := slots, formed := formed, notices := m, noticesLost := b, transmission := tx, chosen := ch } := by
  obtain ⟨tx, hstripped⟩ := sessionStripped_eq ho he hp
  obtain ⟨m, b, tx', ch, hended⟩ := attentionEnded_alone n (sessionStripped n s)
  obtain ⟨m', b', hoffer⟩ := offerEndNotice_same n (s.session n) reason (s.addressOf n) (sessionFreed n reason s)
  obtain ⟨slots, formed, hreply⟩ : ∃ slots formed, formDetachReply (s.session n) reason .aborted 0
      (attentionEnded n (sessionStripped n s)) = { attentionEnded n (sessionStripped n s) with slots := slots, formed := formed } :=
    ⟨_, _, formDetachReply_eq _ _ _ _ _⟩
  refine ⟨slots, formed, m', b', tx', ch, ?_⟩
  rw [abortSession_eq, hoffer, sessionFreed, hreply, hended, hstripped]
  rfl

theorem abortSession_forms (reason : EndReason) {p : PortNo} {n : SessionNo} {s : Part} (ho : Off p s)
    (he : (s.port p).engine = .initial) (hp : (s.session n).port = p) :
    Forms (s.drains reason [n]) s (abortSession reason s n) := by
  obtain ⟨tx, hstripped⟩ := sessionStripped_eq ho he hp
  obtain ⟨m, b, tx', ch, hended⟩ := attentionEnded_alone n (sessionStripped n s)
  have frame := ownerLeft_queue n s
  have stripped : Forms [] s (attentionEnded n (sessionStripped n s)) := by
    rw [hended, hstripped]
    exact ⟨frame.slots, frame.formed⟩
  have freed : Forms (s.drains reason [n]) s (sessionFreed n reason s) :=
    (stripped.after (formDetachReply_forms n reason s)).then (.nothing rfl rfl)
  rw [abortSession_eq]
  exact freed.then (offerEndNotice_same _ _ _ _ _).forms

/-- The notices queued before a session's end on a stopped port, and the loss, pass to where its own notice is offered. -/
theorem sessionFreed_passes {p : PortNo} (reason : EndReason) {n : SessionNo} {s : Part} (ho : Off p s)
    (he : (s.port p).engine = .initial) (hp : (s.session n).port = p) : NoticesPass s (sessionFreed n reason s) := by
  obtain ⟨tx, hstripped⟩ := sessionStripped_eq ho he hp
  have stripped : NoticesPass s (sessionStripped n s) := by
    rw [hstripped]
    have h := (ownerLeft_spares p n s ho).passes
    exact ⟨h.stays, h.shows⟩
  have ended := stripped.trans (attentionEnded_passes n _)
  obtain ⟨hn, hl⟩ := sessionFreed_notices n reason s
  refine ⟨fun m hm h => by rw [hn]; exact ended.stays m hm h, fun h => ?_⟩
  unfold Part.lossShows
  rw [hn, hl]
  exact ended.shows h

/-- Without a supervisor the newest notices stand where they did when a session's own notice is offered. -/
theorem sessionFreed_tail {p : PortNo} (reason : EndReason) {n : SessionNo} {s : Part} (ho : Off p s)
    (he : (s.port p).engine = .initial) (hp : (s.session n).port = p) (hsup : s.supervisor = none) {A B : List Notice}
    (hAB : s.notices = A ++ B) (hB : Unmarked B) :
    ∃ A', (sessionFreed n reason s).notices = A' ++ B ∧ A'.length ≤ A.length := by
  obtain ⟨tx, hstripped⟩ := sessionStripped_eq ho he hp
  obtain ⟨hsilent, -⟩ := (ownerLeft_spares p n s ho).silent hsup
  have h1 : (sessionStripped n s).notices = A ++ B := by
    rw [hstripped]
    exact hsilent.trans hAB
  obtain ⟨A', h2, hA'⟩ := attentionEnded_tail (n := n) h1 hB
  exact ⟨A', (sessionFreed_notices n reason s).1.trans h2, hA'⟩

/-- One session of a stopped port is aborted. -/
theorem abortSession_aborted {p : PortNo} (reason : EndReason) {n : SessionNo} {s : Part} (ho : Off p s)
    (he : (s.port p).engine = .initial) (hp : (s.session n).port = p) :
    SessionsAborted p reason [n] s (abortSession reason s n) := by
  have frame : QueueFrame s (ownerLeft n (clearQueue (sessionQueue n) s)) := ownerLeft_queue n s
  have spared : Spared p s (ownerLeft n (clearQueue (sessionQueue n) s)) := ownerLeft_spares p n s ho
  obtain ⟨slots, formed, m, b, tx, ch, hrest⟩ := abortSession_rest reason ho he hp
  have heq := abortSession_eq reason n s
  have hport (q : PortNo) : (abortSession reason s n).port q = (ownerLeft n (clearQueue (sessionQueue n) s)).port q := by
    rw [hrest]
    rfl
  exact {
    session := fun k => by
      have hfree : (abortSession reason s n).session k =
          ((ownerLeft n (clearQueue (sessionQueue n) s)).setSession n .free).session k := by
        rw [hrest]
        rfl
      rw [hfree, Part.session_setSession, frame.session]
      exact if_congr (by rw [List.mem_singleton, eq_comm]) rfl rfl
    queue := fun q => by
      have hqueue : (abortSession reason s n).queue q = (ownerLeft n (clearQueue (sessionQueue n) s)).queue q := by
        rw [hrest]
        rfl
      rw [hqueue, ownerLeft_get]
      exact if_congr (by rw [List.map_singleton, List.mem_singleton, eq_comm]) rfl rfl
    replies := abortSession_forms reason ho he hp
    drops := fun hw => by
      have dropped := ownerLeft_drops n hw
      rw [show s.queued [n] = (s.queue (sessionQueue n)).map Ref.block from List.append_nil _]
      refine dropped.then ?_
      rw [hrest]
      exact SameStore.drops ⟨rfl, rfl, rfl, fun _ => rfl⟩ rfl dropped.waitList
    kept := fun q _ => by
      rw [hport]
      exact frame.port q
    port := by
      rw [hport]
      exact spared.port
    off := by
      refine ⟨by rw [hport]; exact spared.off.1, ?_⟩
      rw [hrest]
      exact spared.off.2
    supervisor := (abortSession_frame reason s n).supervisor
    passes := by
      rw [heq]
      exact (sessionFreed_passes reason ho he hp).trans (offerEndNotice_passes _ _ _ _ _)
    told := fun e hev k hk => by
      obtain rfl := List.mem_singleton.1 hk
      obtain ⟨m, hmark, hcontent, h | h⟩ := offerEndNotice_cases hev k (s.session k) (s.addressOf k) (sessionFreed k reason s)
      · refine .inl ⟨m, ?_, hmark, hcontent.trans (by rw [hp]; rfl)⟩
        rw [heq, h.2]
        exact List.mem_append_right _ (List.mem_singleton_self m)
      · exact .inr (.inl (by rw [heq]; exact h.2))
    last := fun e hev hsup A B hAB hB hlen => by
      obtain ⟨A', hA, hA'⟩ := sessionFreed_tail reason ho he hp hsup hAB hB
      rw [List.length_singleton] at hlen
      obtain ⟨m, hmark, hcontent, h | h⟩ := offerEndNotice_cases hev n (s.session n) (s.addressOf n) (sessionFreed n reason s)
      · refine ⟨A', B ++ [m], by rw [heq, h.2, hA, List.append_assoc], hA', fun k hk => ?_, ?_⟩
        · rcases List.mem_append.1 hk with hk | hk
          · exact hB k hk
          · rw [List.mem_singleton.1 hk]
            exact hmark
        · rw [List.map_append, List.map_singleton, hcontent, hp]
          rfl
      · have hlong := h.1
        rw [hA, List.length_append] at hlong
        omega }

end Sys2Proof.Machine
end

section
namespace Sys2Proof.Machine
open Sys2Proof.Claims

/-! ### The sessions of a stopped port end one after another (R142) -/

theorem sessionQueue_injective {n m : SessionNo} (h : sessionQueue n = sessionQueue m) : n = m :=
  Fin.ext (by simpa [sessionQueue] using h)

/-- Nothing is aborted where there is no session. -/
theorem sessionsAborted_nil {p : PortNo} (reason : EndReason) {s : Part} (ho : Off p s) : SessionsAborted p reason [] s s where
  session _ := (if_neg List.not_mem_nil).symm
  queue _ := (if_neg List.not_mem_nil).symm
  replies := .nothing rfl rfl
  drops hw := (SameStore.refl s).drops rfl hw
  kept _ _ := .refl _
  port := rfl
  off := ho
  supervisor := rfl
  passes := (Adds.refl s).passes
  told _ _ _ h := absurd h List.not_mem_nil
  last _ _ _ A B hAB hB _ := ⟨A, B, hAB, le_refl _, hB, (List.append_nil _).symm⟩

/-- One session after another. -/
theorem SessionsAborted.cons {p : PortNo} {reason : EndReason} {n : SessionNo} {l : List SessionNo} {s t u : Part}
    (a : SessionsAborted p reason [n] s t) (b : SessionsAborted p reason l t u) (hn : n ∉ l) (hpeers : t.peers = s.peers) :
    SessionsAborted p reason (n :: l) s u := by
  have hsession (m : SessionNo) (hm : m ∈ l) : t.session m = s.session m := by
    rw [a.session, if_neg]
    rw [List.mem_singleton]
    exact fun e => hn (e ▸ hm)
  have hqueue (m : SessionNo) (hm : m ∈ l) : t.queue (sessionQueue m) = s.queue (sessionQueue m) := by
    rw [a.queue, if_neg]
    rw [List.map_singleton, List.mem_singleton]
    exact fun e => hn (sessionQueue_injective e ▸ hm)
  have haddress (m : SessionNo) (hm : m ∈ l) : t.addressOf m = s.addressOf m := by
    simp only [Part.addressOf, Part.peer, hpeers, hsession m hm]
  have htold (e : EventReason) (m : SessionNo) (hm : m ∈ l) : t.told p e m = s.told p e m := by
    rw [Part.told, Part.told, haddress m hm, hsession m hm]
  exact {
    session := fun k => by
      rw [b.session, a.session]
      simp only [List.mem_cons, List.not_mem_nil, or_false]
      by_cases h1 : k ∈ l <;> by_cases h2 : k = n <;> simp [h1, h2]
    queue := fun q => by
      rw [b.queue, a.queue]
      simp only [List.map_cons, List.map_nil, List.mem_cons, List.not_mem_nil, or_false]
      by_cases h1 : q ∈ l.map sessionQueue <;> by_cases h2 : q = sessionQueue n <;> simp [h1, h2]
    replies := by
      have e : s.drains reason (n :: l) = s.drains reason [n] ++ t.drains reason l := by
        have hl : t.drains reason l = s.drains reason l := List.filterMap_congr fun m hm => by rw [hsession m hm]
        rw [hl, Part.drains, Part.drains, Part.drains, ← List.filterMap_append, List.singleton_append]
      rw [e]
      exact a.replies.trans b.replies
    drops := fun hw => by
      have e : s.queued (n :: l) = s.queued [n] ++ t.queued l := by
        have hl : t.queued l = s.queued l := List.flatMap_congr fun m hm => by rw [hqueue m hm]
        rw [hl, Part.queued, Part.queued, Part.queued, ← List.flatMap_append, List.singleton_append]
      rw [e]
      exact (a.drops hw).trans (b.drops (a.drops hw).waitList)
    kept := fun q hq => (a.kept q hq).trans (b.kept q hq)
    port := by
      have := b.port
      rw [a.port] at this
      exact this
    off := b.off
    supervisor := b.supervisor.trans a.supervisor
    passes := a.passes.trans b.passes
    told := fun e he m hm => by
      rcases List.mem_cons.1 hm with rfl | hm
      · refine (a.told e he m (List.mem_singleton_self m)).imp ?_ b.passes.shows
        rintro ⟨k, hk, hmark, hcontent⟩
        exact ⟨k, b.passes.stays k hk hmark, hmark, hcontent⟩
      · rw [← htold e m hm]
        exact b.told e he m hm
    last := fun e he hsup A B hAB hB hlen => by
      rw [List.length_cons] at hlen
      obtain ⟨A', B', h1, hA', hB', hmap⟩ := a.last e he hsup A B hAB hB (by rw [List.length_singleton]; omega)
      have hBlen : B'.length = B.length + 1 := by
        have := congrArg List.length hmap
        simpa only [List.length_map, List.length_append, List.length_singleton] using this
      obtain ⟨A'', B'', h2, hA'', hB'', hmap'⟩ := b.last e he (a.supervisor.trans hsup) A' B' h1 hB' (by omega)
      refine ⟨A'', B'', h2, hA''.trans hA', hB'', ?_⟩
      rw [hmap', hmap, List.append_assoc, List.map_congr_left fun m hm => htold e m hm]
      rfl }

theorem foldl_abortSession_aborted {p : PortNo} (reason : EndReason) {l : List SessionNo} {s : Part} (hl : l.Nodup) (ho : Off p s)
    (he : (s.port p).engine = .initial) (hp : ∀ n ∈ l, (s.session n).port = p) :
    SessionsAborted p reason l s (l.foldl (abortSession reason) s) := by
  induction l generalizing s with
  | nil => exact sessionsAborted_nil reason ho
  | cons n rest ih =>
    obtain ⟨hn, hrest⟩ := List.nodup_cons.1 hl
    have a := abortSession_aborted reason ho he (hp n List.mem_cons_self)
    refine a.cons (ih hrest a.off ?_ fun m hm => ?_) hn (abortSession_frame reason s n).peers
    · rw [a.port]
      exact he
    · rw [a.session, if_neg]
      · exact hp m (List.mem_cons_of_mem _ hm)
      · rw [List.mem_singleton]
        exact fun e => hn (e ▸ hm)

end Sys2Proof.Machine
end

section
namespace Sys2Proof.Machine
open Sys2Proof.Claims

/-! ### A port stops (R20, R21, R54, R72, R112, R174) -/

/-- The ABORTED reply of the port's signal, and that of its waiting load (R54, R174). -/
def Port.abortReplies (x : Port) : List DelayedReply :=
  (x.signal.map fun g => (g.slot, .aborted, g.data)).toList ++ (x.pendingLoad.map fun l => (l.slot, .aborted, [])).toList

theorem formReply_after {s t : Part} (h : t.slots = s.slots) (hf : t.formed = s.formed) (k : SlotNo) (code : ResultCode)
    (data : List Byte) : Forms [(k, code, data)] s (formReply k code data t) := (Forms.nothing h hf).after (formReply_forms k code data t)

theorem abortPendingLoad_none {p : PortNo} {s : Part} (h : (s.port p).pendingLoad = none) : abortPendingLoad p s = s := by
  unfold abortPendingLoad
  rw [h]

theorem abortPendingLoad_some {p : PortNo} {s : Part} {l : PendingLoad} (h : (s.port p).pendingLoad = some l) :
    abortPendingLoad p s = formReply l.slot .aborted [] (s.modPort p fun x => { x with pendingLoad := none }) := by
  unfold abortPendingLoad
  rw [h]

theorem abortSignal_forms (p : PortNo) (s : Part) :
    Forms ((s.port p).signal.map fun g => (g.slot, .aborted, g.data)).toList s (abortSignal p s) := by
  unfold abortSignal
  cases (s.port p).signal with
  | none => exact .nothing rfl rfl
  | some g => exact formReply_after (s := s) (t := s.modPort p fun x => x.dropSignal true) rfl rfl g.slot .aborted g.data

theorem abortPendingLoad_forms (p : PortNo) (s : Part) :
    Forms ((s.port p).pendingLoad.map fun l => (l.slot, .aborted, [])).toList s (abortPendingLoad p s) := by
  unfold abortPendingLoad
  cases (s.port p).pendingLoad with
  | none => exact .nothing rfl rfl
  | some l => exact formReply_after (s := s) (t := s.modPort p fun x => { x with pendingLoad := none }) rfl rfl l.slot .aborted []

/-- A change of port p and the Reply Queue alone. -/
def PortAlone (p : PortNo) (s : Part) (x : Port) (t : Part) : Prop :=
  ∃ slots formed, t = { s.setPort p x with slots := slots, formed := formed }

theorem PortAlone.port {p : PortNo} {s t : Part} {x : Port} (h : PortAlone p s x t) : t.port p = x := by
  obtain ⟨slots, formed, rfl⟩ := h
  exact Part.port_setPort_self s p x

theorem PortAlone.port_ne {p q : PortNo} {s t : Part} {x : Port} (h : PortAlone p s x t) (hq : q ≠ p) : t.port q = s.port q := by
  obtain ⟨slots, formed, rfl⟩ := h
  exact Part.port_setPort_ne s p q x hq.symm

theorem PortAlone.trans {p : PortNo} {s t u : Part} {x y : Port} (a : PortAlone p s x t) (b : PortAlone p t y u) :
    PortAlone p s y u := by
  obtain ⟨slots, formed, rfl⟩ := a
  obtain ⟨slots', formed', rfl⟩ := b
  refine ⟨slots', formed', ?_⟩
  show { (s.setPort p x).setPort p y with slots := slots', formed := formed' } = _
  rw [Part.setPort_setPort]

theorem PortAlone.modPort {p : PortNo} {s t : Part} {x : Port} (a : PortAlone p s x t) (f : Port → Port) :
    PortAlone p s (f x) (t.modPort p f) := by
  refine a.trans (y := f x) ⟨t.slots, t.formed, ?_⟩
  rw [Part.modPort_eq, a.port]
  rfl

/-- The signal and the load of a port end, ABORTED; its lines are still to be set (R54, R174). -/
theorem aborts_alone (p : PortNo) (s : Part) : ∃ lines,
    PortAlone p s { s.port p with signal := none, pendingLoad := none, lines := lines } (abortPendingLoad p (abortSignal p s)) ∧
      Forms (s.port p).abortReplies s (abortPendingLoad p (abortSignal p s)) := by
  have signalled : ∃ lines, PortAlone p s { s.port p with signal := none, lines := lines } (abortSignal p s) := by
    have e := abortSignal_eq p s
    cases h : (s.port p).signal with
    | none =>
      rw [if_pos h] at e
      exact ⟨(s.port p).lines, _, _, by rw [← h]; exact e⟩
    | some g =>
      rw [if_neg (by simp [h])] at e
      exact ⟨_, _, _, e⟩
  obtain ⟨lines, alone⟩ := signalled
  have hload : ((abortSignal p s).port p).pendingLoad = (s.port p).pendingLoad := by rw [alone.port]
  refine ⟨lines, ?_, ?_⟩
  · have loaded : PortAlone p (abortSignal p s) { (abortSignal p s).port p with pendingLoad := none }
        (abortPendingLoad p (abortSignal p s)) := by
      cases h : ((abortSignal p s).port p).pendingLoad with
      | none =>
        refine ⟨(abortSignal p s).slots, (abortSignal p s).formed, ?_⟩
        rw [abortPendingLoad_none h, ← h, Part.setPort_port_self]
      | some l =>
        rw [abortPendingLoad_some h]
        exact ⟨_, _, formReply_eq _ _ _ _⟩
    have both := alone.trans loaded
    rw [alone.port] at both
    exact both
  · have h := (abortSignal_forms p s).trans (abortPendingLoad_forms p (abortSignal p s))
    rwa [hload] at h

/-- Port p has stopped: its engine, its wait for a cell and its RECONFIG limit (R21, R54, R72). -/
def portStopping (p : PortNo) (s : Part) : Part :=
  stopEngine p (s.modPort p fun x => { x with portState := .disabled, reconfigTimer := none })

/-- The assembly and fan-out state of a port emptied (R82, R90, R97, R112). -/
def Port.assemblyCleared (x : Port) : Port :=
  { x with openBlock := none, gapTimer := none, matchPos := Vector.replicate 16 0, blockQueue := [], chain := [],
           headHold := .noHold, holdTimer := none }

/-- The port whose sessions have ended, with nothing left but the holds on its blocks (R54). -/
def portReleasing (p : PortNo) (reason : EndReason) (s : Part) : Part :=
  let t := (s.sessionsOn p).foldl (abortSession reason) (portStopping p s)
  ((abortPendingLoad p (abortSignal p t)).modPort p fun x => { x with lines := .allDeassert }).modPort p Port.assemblyCleared

/-- The port as it stands stopped, its account still as it was (R54). -/
def Port.stopped (x : Port) : Port :=
  { x with
    portState := .disabled, engine := engineAtStart, pendingLoad := none, reconfigTimer := none, openBlock := none
    gapTimer := none, blockQueue := [], chain := [], headHold := .noHold, holdTimer := none
    matchPos := Vector.replicate 16 0, signal := none, lines := .allDeassert }

/-- The port whose engine has stopped. -/
def Port.stopping (x : Port) : Port := { x with portState := .disabled, reconfigTimer := none, engine := .initial }

theorem portStopping_eq (p : PortNo) (s : Part) : portStopping p s =
    { s.modPort p Port.stopping with waitList := s.waitList.filter (· != p) } := by
  have h := Part.modPort_modPort s p (fun x => { x with portState := .disabled, reconfigTimer := none })
    fun x => { x with engine := .initial }
  exact congrArg (fun t : Part => { t with waitList := s.waitList.filter (· != p) }) h

theorem portStopping_port (p : PortNo) (s : Part) : (portStopping p s).port p = (s.port p).stopping := by
  rw [portStopping_eq]
  exact Part.port_modPort_self s p _

theorem portStopping_off (p : PortNo) (s : Part) : Off p (portStopping p s) := by
  refine ⟨by rw [portStopping_port]; rfl, ?_⟩
  rw [portStopping_eq]
  simp

theorem portStopping_port_ne {p q : PortNo} (s : Part) (h : q ≠ p) : (portStopping p s).port q = s.port q := by
  rw [portStopping_eq]
  exact Part.port_modPort_ne s p q _ h.symm

theorem sessionsOn_nodup (p : PortNo) (s : Part) : (s.sessionsOn p).Nodup := (List.nodup_finRange 64).filter _

theorem mem_sessionsOn {p : PortNo} {s : Part} {n : SessionNo} :
    n ∈ s.sessionsOn p ↔ (s.session n).state ≠ .free ∧ (s.session n).port = p := by
  unfold Part.sessionsOn
  rw [List.mem_filter]
  simp [allSessions]

/-- What ending the sessions, the signal and the load of port p brings (R54). -/
structure PortReleasing (p : PortNo) (reason : EndReason) (s t : Part) : Prop where
  session : ∀ k, t.session k = if k ∈ s.sessionsOn p then .free else s.session k
  queue : ∀ q, t.queue q = if q ∈ (s.sessionsOn p).map sessionQueue then [] else s.queue q
  replies : Forms (s.drains reason (s.sessionsOn p) ++ (s.port p).abortReplies) s t
  drops : s.waitList = [] → Drops (s.queued (s.sessionsOn p)) s t
  kept : ∀ q, q ≠ p → PortKept (s.port q) (t.port q)
  port : t.port p = { (s.port p).stopped with portUse := (t.port p).portUse }
  off : Off p t
  supervisor : t.supervisor = s.supervisor
  told : ∀ e, reason.event = some e → ∀ n ∈ s.sessionsOn p,
    (∃ m ∈ t.notices, m.marks = none ∧ m.content = s.told p e n) ∨ t.lossShows
  last : ∀ e, reason.event = some e → s.supervisor = none → s.notices.length + (s.sessionsOn p).length ≤ 32 →
    ∃ A B, t.notices = A ++ B ∧ B.map Notice.content = (s.sessionsOn p).map (s.told p e)

theorem portReleasing_releasing (p : PortNo) (reason : EndReason) (s : Part) :
    PortReleasing p reason s (portReleasing p reason s) := by
  let s1 := portStopping p s
  have hengine : (s1.port p).engine = .initial := by rw [portStopping_port]; rfl
  have aborted : SessionsAborted p reason (s.sessionsOn p) s1 ((s.sessionsOn p).foldl (abortSession reason) s1) :=
    foldl_abortSession_aborted reason (sessionsOn_nodup p s) (portStopping_off p s) hengine fun n hn => (mem_sessionsOn.1 hn).2
  have hfold : portReleasing p reason s = ((abortPendingLoad p (abortSignal p
      ((s.sessionsOn p).foldl (abortSession reason) s1))).modPort p fun x => { x with lines := .allDeassert }).modPort p
        Port.assemblyCleared := rfl
  rw [hfold]
  generalize (s.sessionsOn p).foldl (abortSession reason) s1 = s2 at aborted
  obtain ⟨lines, alone, forms⟩ := aborts_alone p s2
  have alone' := (alone.modPort fun x => { x with lines := .allDeassert }).modPort Port.assemblyCleared
  have forms' : Forms (s2.port p).abortReplies s2 (((abortPendingLoad p (abortSignal p s2)).modPort p
      fun x => { x with lines := .allDeassert }).modPort p Port.assemblyCleared) := forms.then (.nothing rfl rfl)
  generalize ((abortPendingLoad p (abortSignal p s2)).modPort p fun x => { x with lines := .allDeassert }).modPort p
    Port.assemblyCleared = t at alone' forms'
  have hport : t.port p = { (s.port p).stopped with portUse := (s2.port p).portUse } := by
    rw [alone'.port]
    have h := aborted.port
    rw [portStopping_port] at h
    rw [h]
    rfl
  have hreplies : (s2.port p).abortReplies = (s.port p).abortReplies := by
    have h := aborted.port
    rw [portStopping_port] at h
    rw [h]
    rfl
  rw [hreplies] at forms'
  have hstore : SameStore s2 t := by
    have huse (q : PortNo) : (t.port q).portUse = (s2.port q).portUse := by
      by_cases hq : q = p
      · rw [hq, hport]
      · rw [alone'.port_ne hq]
    obtain ⟨slots, formed, rfl⟩ := alone'
    exact ⟨rfl, rfl, rfl, huse⟩
  have hstarted : Forms [] s s1 := .nothing rfl rfl
  obtain ⟨slots, formed, ht⟩ := id alone'
  have hnotices : t.notices = s2.notices ∧ t.noticesLost = s2.noticesLost ∧ t.waitList = s2.waitList ∧
      t.sessions = s2.sessions ∧ t.queues = s2.queues ∧ t.mem = s2.mem ∧ t.supervisor = s2.supervisor := by
    rw [ht]
    exact ⟨rfl, rfl, rfl, rfl, rfl, rfl, rfl⟩
  obtain ⟨hn, hlost, hwait, hsessions, hqueues, hmem, hsup⟩ := hnotices
  exact {
    session := fun k => by
      rw [Part.session, hsessions]
      exact aborted.session k
    queue := fun q => by
      rw [Part.queue, hqueues]
      exact aborted.queue q
    replies := hstarted.after (aborted.replies.trans forms')
    drops := fun hw => by
      have hw1 : s1.waitList = [] := by
        show s.waitList.filter (· != p) = []
        rw [hw]
        rfl
      have started : Drops [] s s1 := by
        refine SameStore.drops ⟨rfl, rfl, rfl, fun q => ?_⟩ rfl hw1
        by_cases hq : q = p
        · rw [hq, portStopping_port]
          rfl
        · rw [portStopping_port_ne s hq]
      have dropped := aborted.drops hw1
      exact started.after (dropped.then (hstore.drops hmem (hwait.trans dropped.waitList)))
    kept := fun q hq => by
      rw [alone'.port_ne hq, ← portStopping_port_ne s hq]
      exact aborted.kept q hq
    port := by
      rw [hport]
    off := by
      refine ⟨by rw [hport]; rfl, ?_⟩
      rw [hwait]
      exact aborted.off.2
    supervisor := hsup.trans aborted.supervisor
    told := fun e he n hmem => by
      unfold Part.lossShows
      rw [hn, hlost]
      exact aborted.told e he n hmem
    last := fun e he hsup' hlen => by
      obtain ⟨A, B, hAB, -, -, hmap⟩ := aborted.last e he hsup' s1.notices [] (List.append_nil _).symm
        (fun m hm => absurd hm List.not_mem_nil) hlen
      exact ⟨A, B, hn.trans hAB, hmap⟩ }

end Sys2Proof.Machine
end

section
namespace Sys2Proof.Machine
open Sys2Proof.Claims

/-! ### What stopping a port does (R54, R140 to R142) -/

/-- Port p has kept its blocks until they are released (R54). -/
theorem releasing_ownBlocks (p : PortNo) (reason : EndReason) (s : Part) :
    ((abortPendingLoad p (abortSignal p ((s.sessionsOn p).foldl (abortSession reason) (portStopping p s)))).port p).ownBlocks =
      (s.port p).ownBlocks := by
  have hengine : ((portStopping p s).port p).engine = .initial := by rw [portStopping_port]; rfl
  have aborted : SessionsAborted p reason (s.sessionsOn p) (portStopping p s) _ :=
    foldl_abortSession_aborted reason (sessionsOn_nodup p s) (portStopping_off p s) hengine fun n hn => (mem_sessionsOn.1 hn).2
  obtain ⟨lines, alone, -⟩ := aborts_alone p ((s.sessionsOn p).foldl (abortSession reason) (portStopping p s))
  rw [alone.port, aborted.port, portStopping_port]
  rfl

/-- A port stops: its sessions, signal and load end, and the holds on its blocks are released from the open block on (R54). -/
theorem stopPort_eq (p : PortNo) (reason : EndReason) (s : Part) : stopPort p reason s =
    (s.port p).ownBlocks.foldl (fun s id => releaseHold id s) (portReleasing p reason s) := by
  rw [← releasing_ownBlocks p reason s]
  show discardBlocks p _ = _
  unfold discardBlocks
  dsimp only
  rw [Part.port_modPort_self]
  rfl

/-- The delayed replies that stopping port p forms, in their order (R54). -/
def Part.stopReplies (s : Part) (p : PortNo) (reason : EndReason) : List DelayedReply :=
  s.drains reason (s.sessionsOn p) ++ (s.port p).abortReplies

/-- The holds that stopping port p releases, in their order (R54). -/
def Part.stopHolds (s : Part) (p : PortNo) : List Nat := s.queued (s.sessionsOn p) ++ (s.port p).ownBlocks

theorem stopHolds_count (p : PortNo) (s : Part) (id : Nat) : (s.stopHolds p).count id = holdsReleased p s id := by
  rw [Part.stopHolds, List.count_append, Part.queued, List.count_flatMap, Nat.add_comm]
  rfl

theorem stopReplies_slots (p : PortNo) (reason : EndReason) (s : Part) : (s.stopReplies p reason).map Prod.fst =
    (s.sessionsOn p).filterMap (fun n => (s.session n).drainSlot) ++ ((s.port p).signal.map Signal.slot).toList
      ++ ((s.port p).pendingLoad.map PendingLoad.slot).toList := by
  rw [Part.stopReplies, Port.abortReplies, Part.drains, List.map_append, List.map_append, List.map_filterMap, List.append_assoc]
  congr 1
  · refine List.filterMap_congr fun n _ => ?_
    cases (s.session n).drainSlot <;> rfl
  · congr 1
    · cases (s.port p).signal <;> rfl
    · cases (s.port p).pendingLoad <;> rfl

/-- The stopped port, whatever became of its account (R54). -/
theorem stopPort_port (p : PortNo) (reason : EndReason) (s : Part) : (stopPort p reason s).port p =
    { (s.port p).stopped with portUse := ((stopPort p reason s).port p).portUse } := by
  have releasing := portReleasing_releasing p reason s
  rw [stopPort_eq]
  have spared : Spared p (portReleasing p reason s) _ :=
    Spares.foldl (fun s id => Spares.releaseHold id s) (s.port p).ownBlocks _ releasing.off
  have frame := StoreFrame.foldl (fun s id => releaseHold id s) (fun s id => releaseHold_store id s) (s.port p).ownBlocks
    (portReleasing p reason s)
  generalize (s.port p).ownBlocks.foldl (fun s id => releaseHold id s) (portReleasing p reason s) = t at spared frame
  have hno : ((portReleasing p reason s).port p).headHold = .noHold := by rw [releasing.port]; rfl
  have hhead : (t.port p).headHold = .noHold := by
    rcases (frame.port p).head with h | ⟨h, -⟩
    · exact h.trans hno
    · exact absurd (hno.symm.trans h) (by simp)
  have hport := spared.port
  rw [hhead, releasing.port] at hport
  exact hport

/-- The replies that stopping a port forms are all it does to the Reply Queue. -/
theorem stopPort_forms (p : PortNo) (reason : EndReason) (s : Part) : Forms (s.stopReplies p reason) s (stopPort p reason s) := by
  rw [stopPort_eq]
  exact (portReleasing_releasing p reason s).replies.then
    (StoreFrame.foldl _ (fun s id => releaseHold_store id s) _ _).toQueueFrame.forms

theorem stopPort_drops (p : PortNo) (reason : EndReason) {s : Part} (hw : s.waitList = []) :
    Drops (s.stopHolds p) s (stopPort p reason s) := by
  rw [stopPort_eq]
  have h := (portReleasing_releasing p reason s).drops hw
  exact h.trans (foldl_releaseHold_drops _ h.waitList)

/-- Every reserved slot that a reply of the stop waits in holds that reply afterwards (R14). -/
theorem stopPort_stopped {p : PortNo} {reason : EndReason} {s : Part} (hnodup : ((s.stopReplies p reason).map Prod.fst).Nodup)
    (hres : ∀ r ∈ s.stopReplies p reason, ∃ h, s.slot r.1 = .reserved h) : PortStopped p reason s (stopPort p reason s) := by
  have releasing := portReleasing_releasing p reason s
  obtain ⟨hformed, hslot, -⟩ := (stopPort_forms p reason s).formed hnodup hres
  have drops := fun hw => stopPort_drops p reason (s := s) hw
  have frame := stopPort_frame p reason s
  have hstop := stopPort_eq p reason s
  have spared : Spared p (portReleasing p reason s) (stopPort p reason s) := by
    rw [hstop]
    exact Spares.foldl (fun s id => Spares.releaseHold id s) (s.port p).ownBlocks _ releasing.off
  have store : StoreFrame (portReleasing p reason s) (stopPort p reason s) := by
    rw [hstop]
    exact StoreFrame.foldl (fun s id => releaseHold id s) (fun s id => releaseHold_store id s) _ _
  generalize stopPort p reason s = t at *
  exact {
    ended := fun n hfree hp => by
      have hn := mem_sessionsOn.2 ⟨hfree, hp⟩
      rw [store.session, store.queue, releasing.session, releasing.queue, if_pos hn, if_pos (List.mem_map_of_mem hn)]
      exact ⟨rfl, rfl⟩
    sessions := fun n hn => by
      rw [store.session, releasing.session, if_neg]
      rw [mem_sessionsOn]
      exact fun ⟨hfree, hp⟩ => hn.elim hfree fun hne => hne hp
    queues := fun q hq => by
      rw [store.queue, releasing.queue, if_neg]
      rintro hmem
      obtain ⟨n, hn, rfl⟩ := List.mem_map.1 hmem
      obtain ⟨hfree, hp⟩ := mem_sessionsOn.1 hn
      exact hq n hfree hp rfl
    order := by
      rw [hformed, stopReplies_slots]
      simp only [List.append_assoc]
    drained := fun n k h hfree hp hk hr => by
      refine hslot (k, .aborted, detachReply reason 0 (s.session n)) (List.mem_append_left _ ?_) h hr
      exact List.mem_filterMap.2 ⟨n, mem_sessionsOn.2 ⟨hfree, hp⟩, by rw [hk]; rfl⟩
    signalled := fun g h hg hr => by
      refine hslot (g.slot, .aborted, g.data) (List.mem_append_right _ (List.mem_append_left _ ?_)) h hr
      rw [hg]
      exact List.mem_singleton_self _
    loaded := fun l h hl hr => by
      refine hslot (l.slot, .aborted, []) (List.mem_append_right _ (List.mem_append_right _ ?_)) h hr
      rw [hl]
      exact List.mem_singleton_self _
    noticed := fun e he n hn => by
      rcases releasing.told e he n hn with ⟨m, hm, hmark, hcontent⟩ | hlost
      · exact .inl ⟨m, spared.passes.stays m hm hmark, congrArg Prod.fst hcontent, congrArg Prod.snd hcontent⟩
      · exact .inr (spared.passes.shows hlost)
    ordered := fun e he hsup hlen => by
      obtain ⟨A, B, hAB, hmap⟩ := releasing.last e he hsup hlen
      obtain ⟨hsilent, -⟩ := spared.silent (releasing.supervisor.trans hsup)
      refine ⟨A.map Notice.content, ?_⟩
      show t.notices.map Notice.content = _
      rw [hsilent, hAB, List.map_append, hmap]
      rfl
    holds := fun hw => by
      rw [← funext (stopHolds_count p s)]
      exact (drops hw).holdsGone
    others := fun q hq => ((releasing.kept q hq).trans (store.port q)).stands
    waits := spared.off.2
    rest := {
      peers := frame.peers
      triggers := frame.triggers
      taps := frame.taps
      system := frame.system
      commissioning := frame.commissioning
      straps := ⟨frame.commissioningStrap, frame.addressStraps⟩
      turn := ⟨frame.lastServed, frame.curQueue, frame.framesLeft, frame.lastControl⟩
      image := ⟨frame.imageState, frame.flash, frame.save⟩
      memory := fun hw => (drops hw).memory } }

end Sys2Proof.Machine
end

section
namespace Sys2Proof.Machine
open Sys2Proof.Claims

/-! ### PORT_CONTROL DISABLE (R54) -/

/-- Whose delayed replies stopping port p forms (R54). -/
def Part.stopHolders (s : Part) (p : PortNo) : List SlotHolder := (s.sessionsOn p).map .drain ++ [.signal p, .load p]

theorem stopHolders_nodup (s : Part) (p : PortNo) : (s.stopHolders p).Nodup := by
  refine List.nodup_append.2 ⟨(sessionsOn_nodup p s).map fun _ _ h => by injection h, by simp, fun a ha b hb e => ?_⟩
  obtain ⟨n, -, rfl⟩ := List.mem_map.1 ha
  subst e
  simp at hb

theorem stopReplies_holders (p : PortNo) (reason : EndReason) (s : Part) :
    (s.stopReplies p reason).map Prod.fst = (s.stopHolders p).filterMap s.slotOf := by
  rw [stopReplies_slots, Part.stopHolders, List.filterMap_append, List.filterMap_map, List.append_assoc]
  congr 1
  simp only [List.filterMap_cons, List.filterMap_nil, Part.slotOf]
  cases (s.port p).signal <;> cases (s.port p).pendingLoad <;> rfl

/-- The slots of the delayed replies of port p are reserved for them, each for one, and none is the slot just claimed (R14). -/
theorem stopReplies_claimed {s : State} (h : s.slotsHeld) {p : PortNo} {reason : EndReason} {k : SlotNo} {r : ReqHeader}
    (hfree : s.part.slot k = .free) :
    ((((s.part.setSlot k (.reserved r)).stopReplies p reason).map Prod.fst).Nodup) ∧
    (∀ d ∈ (s.part.setSlot k (.reserved r)).stopReplies p reason, ∃ g, (s.part.setSlot k (.reserved r)).slot d.1 = .reserved g) ∧
    k ∉ ((s.part.setSlot k (.reserved r)).stopReplies p reason).map Prod.fst := by
  have hslots : ((s.part.setSlot k (.reserved r)).stopReplies p reason).map Prod.fst =
      (s.part.stopHolders p).filterMap s.part.slotOf := by
    rw [stopReplies_holders]
    refine List.filterMap_congr fun g _ => ?_
    cases g <;> rfl
  have held (j : SlotNo) (hj : j ∈ (s.part.stopHolders p).filterMap s.part.slotOf) : ∃ g, s.part.slot j = .reserved g := by
    obtain ⟨g, -, hg⟩ := List.mem_filterMap.1 hj
    exact h.reserved g j hg
  have hk : k ∉ (s.part.stopHolders p).filterMap s.part.slotOf := fun hmem => by
    obtain ⟨g, hg⟩ := held k hmem
    exact absurd (hg.symm.trans hfree) (by simp)
  refine ⟨?_, fun d hd => ?_, ?_⟩
  · rw [hslots]
    refine (stopHolders_nodup s.part p).filterMap fun a b j ha hb => ?_
    exact h.once a b j ha hb
  · have hmem : d.1 ∈ (s.part.stopHolders p).filterMap s.part.slotOf := hslots ▸ List.mem_map_of_mem (f := Prod.fst) hd
    obtain ⟨g, hg⟩ := held d.1 hmem
    exact ⟨g, (Part.slot_setSlot_ne s.part k d.1 _ fun e => hk (e ▸ hmem)).trans hg⟩
  · rw [hslots]
    exact hk

end Sys2Proof.Machine
end

section
namespace Sys2Proof.Machine
open Sys2Proof.Claims

/-! ### PORT_CONTROL DISABLE (R54) -/

/-- The part on which the stop of port p is carried out has the request's slot reserved, and the stop leaves it so (R14). -/
theorem stopPort_claimed {s : State} (h : s.slotsHeld) (p : PortNo) (reason : EndReason) {k : SlotNo} {r : ReqHeader}
    (hfree : s.part.slot k = .free) :
    PortStopped p reason (s.part.setSlot k (.reserved r)) (stopPort p reason (s.part.setSlot k (.reserved r))) ∧
      (stopPort p reason (s.part.setSlot k (.reserved r))).slot k = .reserved r := by
  obtain ⟨hnodup, hres, hk⟩ := stopReplies_claimed h (p := p) (reason := reason) (r := r) hfree
  refine ⟨stopPort_stopped hnodup hres, ?_⟩
  obtain ⟨-, -, hstands⟩ := (stopPort_forms p reason (s.part.setSlot k (.reserved r))).formed hnodup hres
  exact (hstands k hk).trans (Part.slot_setSlot_self _ k _)

theorem passes_free {s : State} {r : RequestRow} {f : RelayFrame} {k : SlotNo} {c : Request} (h : Passes s r f k c) :
    s.part.slot k = .free := freeSlot_free (nextFrame_some h.taken).2

/-- Settles O33, by what stopping a port does. -/
theorem disableReleasesThePort : Obligations.DisableReleasesThePort := by
  unfold Obligations.DisableReleasesThePort
  intro s f k c h
  refine ⟨fun hbyte => ?_, fun p hp => ⟨fun hstop => ?_, fun hrun held => ?_⟩⟩
  · exact passes_refuses h (carry := fun c s => portControl c disablePort s) rfl rfl (portControl_above hbyte)
  · refine passes_refuses h (carry := fun c s => portControl c disablePort s) rfl rfl ?_
    have hoff : disablePort p (s.part.setSlot k (.reserved f.header)) = s.part.setSlot k (.reserved f.header) :=
      if_neg fun hr => (Port.running_iff _).1 hr hstop
    have hdata : portControlData p (s.part.setSlot k (.reserved f.header)) = bytesOf 1 0 ++ [(s.part.port p).epoch] := by
      show bytesOf 1 (s.part.port p).portState.code ++ [(s.part.port p).epoch] = _
      rw [hstop]
      rfl
    rw [portControl_at disablePort _ hp, hoff, hdata]
  · let v := s.part.setSlot k (.reserved f.header)
    let t := stopPort p .portDisabled v
    obtain ⟨stopped, hslot⟩ := stopPort_claimed held p .portDisabled (r := f.header) (passes_free h)
    have hport : t.port p = { (s.part.port p).stopped with portUse := (t.port p).portUse } := stopPort_port p .portDisabled v
    have hdisable : disablePort p v = t := if_pos ((Port.running_iff _).2 hrun)
    have hdata : portControlData p t = bytesOf 1 0 ++ [(s.part.port p).epoch] := by
      rw [portControlData, hport]
      rfl
    refine ⟨s.taken (t.replied f k .ok (bytesOf 1 0 ++ [(s.part.port p).epoch])), ?_, t, ?_, hport, rfl, rfl, rfl⟩
    · show done (takePartRequest (portControlRow 1) (fun c s => portControl c disablePort s) s) = _
      rw [takePartRequest_passes (fun c s => portControl c disablePort s) h, claimed_eq f k c rfl, portControl_at disablePort _ hp,
        hdisable, hdata, passes_answer h hslot, done]
    · rw [claimed_eq f k c rfl]
      exact stopped

end Sys2Proof.Machine
end

section
namespace Sys2Proof.Machine
open Sys2Proof.Claims

/-! ### PORT_CONTROL RESET (R55) -/

/-- What the start of a port offers joins the Notice Queue at its tail. -/
theorem Offers.joins {p : PortNo} {asked : Condition → Prop} {k : Nat} {s t : Part} {l : List Notice}
    (h : Offers p asked k s t l) : ∃ more, t.notices = s.notices ++ more := by
  obtain ⟨more, hmore, -⟩ := offering_notices s l
  exact ⟨more, h.queue.trans hmore⟩

theorem startPort_joins (p : PortNo) (s : Part) : ∃ more, (startPort p s).notices = s.notices ++ more := by
  have none_asked (s : Part) : Asks p (fun _ => False) s := fun _ hno => hno.elim
  have starts (t : Part) : ∃ more, (startEngine p t).notices = t.notices ++ more := by
    obtain ⟨l, hl⟩ := evalPause_offers p p (none_asked (t.modPort p fun x => Port.refreshLines { x with engine := .initial }))
    exact hl.joins
  unfold startPort
  split
  · let t := s.modPort p fun x => { x with portState := .localHold }
    obtain ⟨l, hl, -⟩ := setCondition_offers p p .localPresence (none_asked t)
    obtain ⟨m1, h1⟩ := hl.joins
    obtain ⟨m2, h2⟩ := starts (setCondition p .localPresence t)
    exact ⟨m1 ++ m2, by rw [h2, h1, List.append_assoc]; rfl⟩
  · exact starts _

/-- A port that has started and evaluated its pause differs from what it was in its engine, its state, its conditions and its
lines alone. -/
theorem paused_started_eq (z : Port) : paused (started z) = { z with
    engine := (paused (started z)).engine, portState := (started z).portState
    conditions := (paused (started z)).conditions, lines := (paused (started z)).lines } := by
  have h := paused_moved (started z)
  rw [Port.movedAs, paused_portUse, paused_chain] at h
  have he := congrArg Port.engine h
  dsimp only at he
  rw [he]
  exact h

/-- Starting reads neither the engine nor the state the port had. -/
theorem started_again {z : Port} (e : Engine) (st : PortState) (hc : z.conditions = 0) (hl : z.lines = .allDeassert) :
    started { z with engine := e, portState := st, conditions := 0, lines := .allDeassert } = started z := by
  unfold started
  dsimp only
  rw [hc, hl]
  rfl

/-- The port that starts with no condition set: its state, its conditions and, below the threshold, its engine (R20, R21, R35). -/
theorem paused_started {z : Port} (hc : z.conditions = 0) :
    (paused (started z)).conditions =
      (if z.profile.presenceSource = .dsr ∧ z.dsrDebounced = true then Condition.localPresence.bit else 0)
        ||| (if z.profile.pauseOn ≤ z.portUse then Condition.pause.bit else 0) ∧
    (z.portUse < z.profile.pauseOn → (paused (started z)).engine = engineAtStart) := by
  have hbase : (started z).conditions =
      if z.profile.presenceSource = .dsr ∧ z.dsrDebounced = true then Condition.localPresence.bit else 0 := by
    unfold started
    dsimp only
    rw [hc]
    split_ifs <;> rfl
  have hrun : (started z).portState ≠ .disabled := by
    unfold started
    dsimp only
    split_ifs <;> simp
  have hreleased : (started z).engine.pause = .released := rfl
  rcases paused_cases (started z) with ⟨hs | ⟨-, hlt⟩ | ⟨hp, -⟩, e⟩ | ⟨-, -, hle, e⟩ | ⟨-, hp, -, e⟩
  · exact absurd hs hrun
  · rw [e, if_neg (show ¬z.profile.pauseOn ≤ z.portUse from Nat.not_le.2 hlt), hbase]
    exact ⟨(BitVec.or_zero).symm, fun _ => rfl⟩
  · exact absurd (hreleased.symm.trans hp) (by simp)
  · rw [e, Port.load_conditions, if_pos (show z.profile.pauseOn ≤ z.portUse from hle), ← hbase]
    exact ⟨rfl, fun hlt => absurd hle (Nat.not_le.2 hlt)⟩
  · exact absurd (hreleased.symm.trans hp) (by simp)

/-- The port that a stop has left is reset and, if it ran, starts again (R55). -/
def portRestarted (ran : Bool) (p : PortNo) (t : Part) : Part :=
  if ran then startPort p (t.modPort p Port.resetRecord) else t.modPort p Port.resetRecord

/-- The stopped port as RESET leaves it, its state and epoch still to be answered (R55). -/
def Port.renewed (ran : Bool) (z : Port) : Port := if ran then paused (started z) else z

theorem resetPort_eq (p : PortNo) (v : Part) : resetPort p v = portRestarted (v.port p).running p (stopPort p .portReset v) := rfl

theorem portRestarted_same (ran : Bool) (p : PortNo) (t : Part) :
    SameButNotices (t.setPort p (Port.renewed ran (t.port p).resetRecord)) (portRestarted ran p t) := by
  unfold portRestarted Port.renewed
  cases ran with
  | false => exact .refl _
  | true =>
    have h := startPort_same p (t.modPort p Port.resetRecord)
    rwa [Part.modPort_modPort] at h

theorem portRestarted_port (ran : Bool) (p : PortNo) (t : Part) :
    (portRestarted ran p t).port p = Port.renewed ran (t.port p).resetRecord :=
  ((portRestarted_same ran p t).port p).trans (Part.port_setPort_self t p _)

theorem portRestarted_joins (ran : Bool) (p : PortNo) (t : Part) :
    ∃ more, (portRestarted ran p t).notices = t.notices ++ more := by
  unfold portRestarted
  cases ran with
  | false => exact ⟨[], (List.append_nil _).symm⟩
  | true => exact startPort_joins p (t.modPort p Port.resetRecord)

/-- What a restart leaves of the port (R55). -/
theorem Port.renewed_eq (ran : Bool) (z : Port) : Port.renewed ran z = { z with
    engine := (Port.renewed ran z).engine, portState := (Port.renewed ran z).portState
    conditions := (Port.renewed ran z).conditions, lines := (Port.renewed ran z).lines } := by
  unfold Port.renewed
  cases ran with
  | false => rfl
  | true =>
    have h := paused_started_eq z
    have hs := congrArg Port.portState h
    dsimp only at hs
    rw [← hs] at h
    exact h

/-- The port that ran, reset and started again with no condition set and its lines deasserted (R20, R21, R55, R169). -/
theorem Port.renewed_ran {z : Port} (hc : z.conditions = 0) (hl : z.lines = .allDeassert) {y : Port}
    (hy : y = Port.renewed true z) :
    let present := z.profile.presenceSource = .dsr ∧ z.dsrDebounced = true
    y.portState = (if present then .localHold else .active) ∧
    y.conditions = (if present then Condition.localPresence.bit else 0)
      ||| (if y.profile.pauseOn ≤ y.portUse then Condition.pause.bit else 0) ∧
    (y.portUse < y.profile.pauseOn → y.engine = engineAtStart) ∧
    y = paused (started { y with conditions := 0, lines := .allDeassert }) := by
  intro present
  have hp : y = paused (started z) := hy
  have heq := Port.renewed_eq true z
  rw [← hy] at heq
  have huse : y.portUse = z.portUse := (congrArg Port.portUse heq).trans rfl
  have hprofile : y.profile = z.profile := (congrArg Port.profile heq).trans rfl
  obtain ⟨hconditions, hengine⟩ := paused_started hc
  rw [← hp] at hconditions hengine
  refine ⟨?_, ?_, ?_, ?_⟩
  · rw [hp, paused_started_eq]
    rfl
  · rw [huse, hprofile]
    exact hconditions
  · rw [huse, hprofile]
    exact hengine
  · have hagain := started_again (z := z) y.engine y.portState hc hl
    have hsame : { y with conditions := 0, lines := .allDeassert } =
        { z with engine := y.engine, portState := y.portState, conditions := 0, lines := .allDeassert } :=
      congrArg (fun q : Port => { q with conditions := 0, lines := .allDeassert }) heq
    rw [hsame, hagain]
    exact hp

/-- Settles O34, by what stopping and what starting a port does. -/
theorem resetClearsThePort : Obligations.ResetClearsThePort := by
  unfold Obligations.ResetClearsThePort
  intro s f k c h
  refine ⟨fun hbyte => ?_, fun p hp held => ?_⟩
  · exact passes_refuses h (carry := fun c s => portControl c resetPort s) rfl rfl (portControl_above hbyte)
  intro x present
  obtain ⟨stopped, hslot⟩ := stopPort_claimed held p .portReset (r := f.header) (passes_free h)
  have hport : (stopPort p .portReset (s.part.setSlot k (.reserved f.header))).port p = { x.stopped with
    portUse := ((stopPort p .portReset (s.part.setSlot k (.reserved f.header))).port p).portUse } := stopPort_port p .portReset _
  have hreset := resetPort_eq p (s.part.setSlot k (.reserved f.header))
  generalize stopPort p .portReset (s.part.setSlot k (.reserved f.header)) = t at stopped hslot hport hreset
  have same := portRestarted_same x.running p t
  have hy := portRestarted_port x.running p t
  have joins := portRestarted_joins x.running p t
  have hreset : resetPort p (s.part.setSlot k (.reserved f.header)) = portRestarted x.running p t := hreset
  generalize portRestarted x.running p t = u at same hy joins hreset
  have hz : (t.port p).resetRecord = { x.stopped.resetRecord with portUse := (t.port p).portUse } := by
    rw [hport]
    rfl
  have kept := Port.renewed_eq x.running (t.port p).resetRecord
  rw [← hy, hz] at kept
  have hepoch : (u.port p).epoch = x.epoch + 1 := (congrArg Port.epoch kept).trans rfl
  have hslot' : u.slot k = .reserved f.header := (congrArg (·[k]) same.slots).trans hslot
  obtain ⟨data, hdata⟩ : ∃ data, bytesOf 1 (u.port p).portState.code ++ [x.epoch + 1] = data := ⟨_, rfl⟩
  have hpart : (s.taken (u.replied f k .ok data)).part.port p = u.port p := rfl
  refine ⟨s.taken (u.replied f k .ok data), ?_, t, ?_, joins,
    (congrArg Port.portUse kept).trans rfl, fun q hq => ?_, ?_, ?_, fun hstop => ?_, fun hrun => ?_, rfl, rfl⟩
  · show done (takePartRequest (portControlRow 2) (fun c s => portControl c resetPort s) s) = _
    rw [takePartRequest_passes (fun c s => portControl c resetPort s) h, claimed_eq f k c rfl, portControl_at resetPort _ hp,
      hreset, portControlData, hepoch, hdata, passes_answer h hslot', done]
  · rw [claimed_eq f k c rfl]
    exact stopped
  · exact (same.port q).trans (Part.port_setPort_ne t p q _ hq.symm)
  · rw [hpart, hdata]
    show u.replied f k .ok data = _
    rw [same.eq]
    rfl
  · rw [hpart, kept]
    exact ⟨rfl, rfl, rfl, rfl, rfl, rfl, rfl, rfl, rfl, rfl, rfl, rfl, rfl, rfl, rfl, rfl, rfl, rfl, rfl, rfl, rfl⟩
  · have hno : x.running = false := by
      rw [← Bool.not_eq_true, Port.running_iff]
      exact not_not.2 hstop
    have hyz : u.port p = { x.stopped.resetRecord with portUse := (t.port p).portUse } := by
      rw [hy, hno, ← hz]
      rfl
    show (u.port p).portState = _ ∧ (u.port p).conditions = _ ∧ (u.port p).engine = _ ∧ (u.port p).lines = _
    rw [hyz]
    exact ⟨rfl, rfl, rfl, rfl⟩
  · have hyes : x.running = true := (Port.running_iff x).2 hrun
    rw [hyes, hz] at hy
    exact Port.renewed_ran (z := { x.stopped.resetRecord with portUse := (t.port p).portUse }) rfl rfl hy

end Sys2Proof.Machine
end
